-- ==== Sys2Proof/Word.lean ====
section
/-! DEFINITION. The word types of the block (00_scope.md R8, R10): all values are unsigned. -/

namespace Sys2Proof

/-- A bus byte, a register byte or a payload byte: bit 7 most significant, bit 0 least (R8). -/
abbrev Byte := BitVec 8

/-- A register address, 0x00 to 0x1F (R5 `ADDR_BITS`, R21). -/
abbrev RegAddr := BitVec 5

end Sys2Proof
end

