-- ==== Sys2Proof/Config.lean ====
section
/-! DEFINITION. The parameters of the block: those the source fixes (00_scope.md R5), those it leaves open (R6) as a
record of plain data, the reference set REF (R7), and the free values (R12, R41, R248). -/

namespace Sys2Proof

/-- `PW`: bytes in a payload and in a FIFO entry (R5). -/
def payloadWidth : Nat := 32

/-- `MAX_FRAME`: bytes in the largest frame (R5). -/
def maxFrame : Nat := 33

/-- `TX_PULSE_MIN_US` (R5): a duty of the host, read by no rule (R329, R334). -/
def txPulseMinUs : Nat := 10

/-- The open parameters that the rules read (R6). Plain data: `State` carries one, no step changes it, and the statements
hold for every one with `Config.wf`. `RESET_IMAGE` and `CE_INIT` are arguments of `State.powerOn`, `IRQ_FN` is
`Machine.Config.irqFn`. -/
structure Config where
  /-- `AW`: bytes in RX_ADDR_P0 and in TX_ADDR. -/
  aw : Nat
  /-- `FIFO_DEPTH`: entries each FIFO holds. -/
  fifoDepth : Nat
  /-- `NOP_OPCODE`: the command byte of NOP. -/
  nopOpcode : Byte
  /-- `PRIM_RX_BIT`: the position of PRIM_RX in CONFIG. -/
  primRxBit : Fin 8
  /-- `PWR_UP_BIT`: the position of PWR_UP in CONFIG. -/
  pwrUpBit : Fin 8
  /-- `RX_P_NO_EMPTY`: Status bits 3:1 while the RX FIFO is empty. -/
  rxPNoEmpty : BitVec 3
  /-- `FIFO_STATUS_HI` as a table: row `len(txq)`, column `len(rxq)`, each 0 to `FIFO_DEPTH`. -/
  fifoStatusHi : List (List (BitVec 7))
  /-- `READ_PAYLOAD_POPS`: whether READ_PAYLOAD removes the entry it read. -/
  readPayloadPops : Bool
  deriving DecidableEq, Repr

/-- The constraints of R6 on the parameters; the table covers every pair of occupancies. -/
abbrev Config.wf (c : Config) : Prop :=
  (3 ≤ c.aw ∧ c.aw ≤ 5) ∧ 1 ≤ c.fifoDepth ∧
  (0x40 ≤ c.nopOpcode.toNat ∧ c.nopOpcode ≠ 0x61#8 ∧ c.nopOpcode ≠ 0xA0#8 ∧ c.nopOpcode ≠ 0xE1#8 ∧ c.nopOpcode ≠ 0xE2#8) ∧
  c.pwrUpBit ≠ c.primRxBit ∧
  c.fifoStatusHi.length = c.fifoDepth + 1 ∧ (∀ row ∈ c.fifoStatusHi, row.length = c.fifoDepth + 1)

/-- The REF layout of FIFO_STATUS bits 7:1 (10_state.md R29): 0, TX_REUSE 0, TX_FULL, TX_EMPTY, 00, RX_FULL. -/
def refFifoStatusHi (depth tx rx : Nat) : BitVec 7 :=
  0#2 ++ BitVec.ofBool (tx == depth) ++ BitVec.ofBool (tx == 0) ++ 0#2 ++ BitVec.ofBool (rx == depth)

/-- The table of a FIFO_STATUS_HI function on the occupancies a FIFO of that depth can have. -/
def fifoStatusTable (depth : Nat) (f : Nat → Nat → BitVec 7) : List (List (BitVec 7)) :=
  (List.range (depth + 1)).map fun tx => (List.range (depth + 1)).map fun rx => f tx rx

/-- The reference parameter set REF (R7). PRESUMED but for `aw`, log 2. -/
def Config.ref : Config where
  aw := 5
  fifoDepth := 3
  nopOpcode := 0xFF#8
  primRxBit := 0
  pwrUpBit := 1
  rxPNoEmpty := 0b111#3
  fifoStatusHi := fifoStatusTable 3 (refFifoStatusHi 3)
  readPayloadPops := true

/-- `draw()` (R12): the n-th value under no law. A free value: nothing is known of it (log 5). -/
opaque Config.draw : Nat → Byte

/-- FIFO_STATUS bits 7:1 for occupancies above `FIFO_DEPTH`, which no run reaches (R42 INV2). A free value, log 11. -/
opaque Config.fifoStatusHiBeyond : Nat → Nat → BitVec 7

/-- The padding byte of the driver's `pad32` (44_host_sequences.md R248, not given). A free value, log 15. -/
opaque Config.padByte : Byte

/-- Whether `pad32` pads in front (R248, not given). A free value, log 15. -/
opaque Config.padsInFront : Bool

/-- Whether `pad32` cuts in front when it truncates (R248, not given). A free value, log 15. -/
opaque Config.cutsInFront : Bool

end Sys2Proof
end

