-- ==== Sys2Proof/Syntax.lean ====
section
/-! DEFINITION. The seven commands (30_encoding.md R92), one constructor per row of the opcode table, and the names of the
fourteen catalogued registers (10_state.md R22). A command is what the frame sequencer latches as `cmd` (R38); the data
bytes of its frame are not part of it. -/

namespace Sys2Proof

/-- A decoded command (R38, R100). -/
inductive Instr where
  /-- READ_REGISTER(a), R120. -/
  | readRegister (a : RegAddr)
  /-- WRITE_REGISTER(a), R121. -/
  | writeRegister (a : RegAddr)
  /-- READ_PAYLOAD, R162. -/
  | readPayload
  /-- WRITE_PAYLOAD, R163. -/
  | writePayload
  /-- FLUSH_TX, R160. -/
  | flushTx
  /-- FLUSH_RX, R161. -/
  | flushRx
  /-- NOP, R150. -/
  | nop
  deriving DecidableEq, Repr

/-- The fourteen catalogued registers, in the order of R22. -/
inductive RegName where
  | config | enAa | enRxaddr | setupAw | setupRetr | rfCh | rfSetup | status
  | rxAddrP0 | txAddr | rxPwP0 | fifoStatus | dynpd | feature
  deriving DecidableEq, Repr

end Sys2Proof
end

