-- ==== Sys2Proof/Machine/Catalogue.lean ====
section
/-! DEFINITION. The register catalogue (10_state.md R22, R31; 20_memory.md R69): which address names which register, and
each register's width in bytes. Fixed: no command moves a register. -/

namespace Sys2Proof

/-- The register an address names; none for the eighteen uncatalogued addresses (R22, R31). -/
def regAt (a : RegAddr) : Option RegName :=
  match a.toNat with
  | 0x00 => some .config
  | 0x01 => some .enAa
  | 0x02 => some .enRxaddr
  | 0x03 => some .setupAw
  | 0x04 => some .setupRetr
  | 0x05 => some .rfCh
  | 0x06 => some .rfSetup
  | 0x07 => some .status
  | 0x0A => some .rxAddrP0
  | 0x10 => some .txAddr
  | 0x11 => some .rxPwP0
  | 0x17 => some .fifoStatus
  | 0x1C => some .dynpd
  | 0x1D => some .feature
  | _ => none

/-- The one address of each register (R21, R22). -/
def RegName.addr : RegName → RegAddr
  | .config => 0x00#5
  | .enAa => 0x01#5
  | .enRxaddr => 0x02#5
  | .setupAw => 0x03#5
  | .setupRetr => 0x04#5
  | .rfCh => 0x05#5
  | .rfSetup => 0x06#5
  | .status => 0x07#5
  | .rxAddrP0 => 0x0A#5
  | .txAddr => 0x10#5
  | .rxPwP0 => 0x11#5
  | .fifoStatus => 0x17#5
  | .dynpd => 0x1C#5
  | .feature => 0x1D#5

/-- `catalogued(a)` (30_encoding.md R100). -/
def catalogued (a : RegAddr) : Bool := (regAt a).isSome

/-- The nine plain registers (10_state.md R23). -/
def RegName.isPlain : RegName → Bool
  | .enAa | .enRxaddr | .setupAw | .setupRetr | .rfCh | .rfSetup | .rxPwP0 | .dynpd | .feature => true
  | .config | .status | .rxAddrP0 | .txAddr | .fifoStatus => false

/-- `width(a)` for a named register (R22): `AW` for the two address registers, else 1. -/
def RegName.width (cfg : Config) : RegName → Nat
  | .rxAddrP0 | .txAddr => cfg.aw
  | _ => 1

/-- `width(a)` (R22); 0 where no register is. -/
def regWidth (cfg : Config) (a : RegAddr) : Nat :=
  match regAt a with
  | some r => r.width cfg
  | none => 0

end Sys2Proof
end

