-- ==== Sys2Proof/WellFormed.lean ====
section
/-! DEFINITION. Which terms of `Instr` are commands of the block: the address of a register command is catalogued
(10_state.md R38, 30_encoding.md R98). -/

namespace Sys2Proof

/-- The command's address, where it has one, names a register (R38, R98). -/
def Instr.wf : Instr → Bool
  | .readRegister a => catalogued a
  | .writeRegister a => catalogued a
  | .readPayload | .writePayload | .flushTx | .flushRx | .nop => true

/-- A frame's bytes as R9 bounds them: at least one, at most `MAX_FRAME`. -/
abbrev frameWf (tx : List Byte) : Prop := 1 ≤ tx.length ∧ tx.length ≤ maxFrame

end Sys2Proof
end

