-- ==== Sys2Proof/Decode.lean ====
section
/-! DEFINITION. The command byte: `decode(b)`, total on all 256 bytes (30_encoding.md R91, R92, R93, R100), and the encoder
written from the same table (R92, R121). -/

namespace Sys2Proof

/-- What a command byte is: a command, a register command that names a reserved address (R98), or illegal (R97). -/
inductive Decoded where
  | command (i : Instr)
  | reserved (a : RegAddr)
  | illegal (b : Byte)
  deriving DecidableEq, Repr

/-- `b[7:5]`, the field `op3` of format A (R91). -/
def opField (b : Byte) : BitVec 3 := b.extractLsb' 5 3

/-- `b[4:0]`, the register address of format A (R91, R93). -/
def addrField (b : Byte) : RegAddr := b.extractLsb' 0 5

/-- `decode(b)` (R100). -/
def decode (cfg : Config) (b : Byte) : Decoded :=
  if opField b = 0b000#3 then
    if catalogued (addrField b) then .command (.readRegister (addrField b)) else .reserved (addrField b)
  else if opField b = 0b001#3 then
    if catalogued (addrField b) then .command (.writeRegister (addrField b)) else .reserved (addrField b)
  else if b = 0x61#8 then .command .readPayload
  else if b = 0xA0#8 then .command .writePayload
  else if b = 0xE1#8 then .command .flushTx
  else if b = 0xE2#8 then .command .flushRx
  else if b = cfg.nopOpcode then .command .nop
  else .illegal b

/-- The decoder on the bytes of a frame (R90): the command byte's reading and the data bytes that are left; none for the
empty frame, which has no command byte (R102). -/
def decodeFrame (cfg : Config) : List Byte → Option (Decoded × List Byte)
  | [] => none
  | b :: ds => some (decode cfg b, ds)

/-- The command byte of a command (R92: `000aaaaa`, `001aaaaa`, the fixed opcodes, `NOP_OPCODE`). -/
def encode (cfg : Config) : Instr → Byte
  | .readRegister a => 0b000#3 ++ a
  | .writeRegister a => 0b001#3 ++ a
  | .readPayload => 0x61#8
  | .writePayload => 0xA0#8
  | .flushTx => 0xE1#8
  | .flushRx => 0xE2#8
  | .nop => cfg.nopOpcode

/-- `maxdata(cmd)`, the most data bytes a command takes (R94). -/
def Instr.maxData (cfg : Config) : Instr → Nat
  | .readRegister a => regWidth cfg a
  | .writeRegister a => regWidth cfg a
  | .readPayload => payloadWidth
  | .writePayload => payloadWidth
  | .flushTx => 0
  | .flushRx => 0
  | .nop => 0

/-- The bytes of an instruction whose bits the opcode table numbers: the first byte is bits 7..0, the next bits 15..8. -/
def tableWordBytes (nbits w : Nat) : List Byte :=
  (List.range (max 1 (nbits / 8))).map fun k => BitVec.ofNat 8 (w / 2 ^ (8 * k))

/-- The decoder on a table word, under the parameters of `State.reset` (REF). -/
def decodeTableWord (nbits w : Nat) : Option Instr :=
  match decodeFrame Config.ref (tableWordBytes nbits w) with
  | some (.command i, _) => some i
  | _ => none

/-- The frame that stands for a table word: its bytes, then data bytes of zeros up to the most the command takes. -/
def tableWordFrame (cfg : Config) (nbits w : Nat) : List Byte :=
  match decodeFrame cfg (tableWordBytes nbits w) with
  | some (.command i, ds) => (tableWordBytes nbits w) ++ List.replicate (i.maxData cfg - ds.length) 0x00#8
  | _ => tableWordBytes nbits w

end Sys2Proof
end

