-- ==== Sys2Proof/Machine/State.lean ====
section
/-! DEFINITION. The state of the block (10_state.md R20, R22 to R40), the steps of the agents (00_scope.md R11), the fault
reasons (60_exceptions.md R281), the refusals ("no step", 00_scope.md R12), and the state after power-on (R43). -/

namespace Sys2Proof.Machine

/-- The mode of the sequencer, a closed enumeration (R32). -/
inductive Mode where
  | receive | transmit
  deriving DecidableEq, Repr

/-- A level of the control line or of the interrupt pin (R33, R41). -/
inductive Level where
  | low | high
  deriving DecidableEq, Repr, Inhabited

/-- The phase of the frame sequencer (R38): no frame, a frame without its command byte, a frame with it. -/
inductive FramePhase where
  | idle | cmd | data
  deriving DecidableEq, Repr

/-- An entry of the RX FIFO (R37): a pipe number and `PW` payload bytes. -/
structure RxEntry where
  pipe : BitVec 3
  payload : List Byte
  deriving DecidableEq, Repr

/-- The twelve stored registers (R22, R23, R24, R30). STATUS and FIFO_STATUS have no stored bytes. -/
structure RegFile where
  config : Byte
  enAa : Byte
  enRxaddr : Byte
  setupAw : Byte
  setupRetr : Byte
  rfCh : Byte
  rfSetup : Byte
  /-- RX_ADDR_P0, `AW` bytes, byte 0 first (R30). -/
  rxAddrP0 : List Byte
  /-- TX_ADDR, `AW` bytes, byte 0 first (R30). -/
  txAddr : List Byte
  rxPwP0 : Byte
  dynpd : Byte
  feature : Byte
  deriving DecidableEq, Repr

/-- One step of an agent (00_scope.md R11). -/
inductive Stimulus where
  /-- Chip-select falls: a frame opens (R99). -/
  | csnFall
  /-- One byte is exchanged (R99); the response goes to `State.rx`. -/
  | byte (b : Byte)
  /-- Chip-select rises: the frame closes and commits (R99). -/
  | csnRise
  /-- The composite FRAME(tx): CSN_FALL, one BYTE per element, CSN_RISE, with no other step between (R11, R74, R99). -/
  | frame (tx : List Byte)
  /-- The host drives the control line (R200). -/
  | ce (level : Level)
  /-- The radio link reports a packet sent (R207). -/
  | evTxDs
  /-- The radio link reports the retransmit limit (R208). -/
  | evMaxRt
  /-- The radio link delivers a packet of `PW` bytes (R209). -/
  | evRx (p : List Byte)
  deriving DecidableEq, Repr

/-- The fault reasons F1 to F5 (60_exceptions.md R281). A raised fault sets `State.fault`; from then on `step` answers it and
gives no next state (R280). Safe, all of them: the hardware may go on where the model stops. -/
inductive Fault where
  /-- F1: the command byte is no command (R97); raised by BYTE at fidx = 0. Safe. -/
  | illegalOpcode (b : Byte)
  /-- F2: the command byte names an uncatalogued address (R98); raised by BYTE at fidx = 0. Safe. -/
  | reservedRegister (a : RegAddr)
  /-- F3: data byte `k` is beyond `maxdata(cmd)` (R66); raised by BYTE at fidx ≥ 1. Safe. -/
  | lengthMismatch (cmd : Instr) (k : Nat)
  /-- F4: a write of FIFO_STATUS with data (R124); raised by CSN_RISE. Safe. -/
  | readOnlyRegister (a : RegAddr)
  /-- F5: WRITE_PAYLOAD into a full TX FIFO (R163); raised by CSN_RISE. Safe. -/
  | txFifoOverflow
  deriving DecidableEq, Repr

/-- Why a stimulus has no step (00_scope.md R12, "no step"; U20, U22). None of them stops an instruction that the spec gives
an effect: each is a move that the spec says is not enabled. -/
inductive Refusal where
  /-- An instruction without a meaning; no arm of `exec` raises it. Safe. -/
  | notModelled (mnemonic : String)
  /-- BYTE or CSN_RISE while no frame is open (R77, R326). Raised by `fetch` and `runCommand`. Unsafe where a host makes
  the move (R326: the model assumes it never does, log 7). -/
  | noFrameOpen
  /-- CSN_FALL or FRAME inside an open frame (R77, R326). Raised by `fetch` and `runCommand`. Unsafe as `noFrameOpen`. -/
  | frameAlreadyOpen
  /-- A data byte although no command is latched: no run reaches such a state (R42 INV5). Raised by `fetch`. Safe. -/
  | noCommandLatched
  /-- An event whose guard is false (R207, R208, R209, U22). Raised by the event steps. Unsafe if a real part has such a
  run (R212, log 7). -/
  | eventNotEnabled
  /-- EV_RX with other than `PW` bytes: no event of the spec (R209). Raised by `stepEvRx`. Safe. -/
  | notAPacket
  /-- `exec` asked to run a command where the next stimulus is no bus step with a byte or a closing edge; `step` never asks
  it. Raised by `runCommand`. Safe. -/
  | notACommandStep
  deriving DecidableEq, Repr

/-- The state of the block. The fields up to `fault` are the complete state of R20; the last three and `cfg` are the
model's own (log 1, 2, 5, 8). -/
structure State where
  /-- The parameters (R6), changed by no step. -/
  cfg : Config
  /-- `x[a]` for the twelve stored registers (R22). -/
  regs : RegFile
  /-- Event flag, Status bit 6 (R26). -/
  rxDr : Bool
  /-- Event flag, Status bit 5 (R26). -/
  txDs : Bool
  /-- Event flag, Status bit 4 (R26). -/
  maxRt : Bool
  /-- R32. -/
  mode : Mode
  /-- R33. -/
  ce : Level
  /-- R34. -/
  txArmed : Bool
  /-- The TX FIFO, head first (R36). -/
  txq : List (List Byte)
  /-- The RX FIFO, head first (R37). -/
  rxq : List RxEntry
  /-- R38. -/
  fs : FramePhase
  /-- The index of the next byte of the open frame (R39). -/
  fidx : Nat
  /-- The latched command (R38). -/
  cmd : Option Instr
  /-- The data bytes of the open frame (R38). -/
  dbuf : List Byte
  /-- The RX entry latched by READ_PAYLOAD (R38). -/
  rdl : Option RxEntry
  /-- The sticky fault mark (R40). -/
  fault : Option Fault
  /-- The steps of the agents still to come, the next one first. -/
  stimuli : List Stimulus
  /-- The response bytes `rx[0]`, `rx[1]`, ... of the open or last frame (R9). -/
  rx : List Byte
  /-- How many draws have been made. -/
  drawCount : Nat
  deriving DecidableEq, Repr

/-- `IRQ_FN` (00_scope.md R6, R41): the level of the interrupt pin as a function of the state. `State.irqPin` gives it
the state of R20 and the parameters alone. A free value, log 12. -/
opaque Config.irqFn : State → Level

/-- The state after power-on, for any parameters, any RESET_IMAGE and any CE_INIT (R43, R320). -/
def State.powerOn (cfg : Config) (image : RegFile) (ceInit : Level) : State where
  cfg := cfg
  regs := image
  rxDr := false
  txDs := false
  maxRt := false
  mode := if image.config.getLsbD cfg.primRxBit then .receive else .transmit
  ce := ceInit
  txArmed := false
  txq := []
  rxq := []
  fs := .idle
  fidx := 0
  cmd := none
  dbuf := []
  rdl := none
  fault := none
  stimuli := []
  rx := []
  drawCount := 0

/-- The power-on values of the nRF24L01+ (93_implementation_defined.md G17). PRESUMED, log 3. -/
def RegFile.family : RegFile where
  config := 0x08#8
  enAa := 0x3F#8
  enRxaddr := 0x03#8
  setupAw := 0x03#8
  setupRetr := 0x03#8
  rfCh := 0x02#8
  rfSetup := 0x0E#8
  rxAddrP0 := [0xE7#8, 0xE7#8, 0xE7#8, 0xE7#8, 0xE7#8]
  txAddr := [0xE7#8, 0xE7#8, 0xE7#8, 0xE7#8, 0xE7#8]
  rxPwP0 := 0x00#8
  dynpd := 0x00#8
  feature := 0x00#8

/-- The machine right after reset: power-on (R43, R320) under REF (log 2), with the family's register values (log 3) and the
control line low (log 4). -/
def State.reset : State := State.powerOn Config.ref RegFile.family .low

end Sys2Proof.Machine
end

