-- ==== Sys2Proof/Machine/Flags.lean ====
section
/-! DEFINITION. Every value composed from the state: the Status byte and the FIFO Status byte (10_state.md R25 to R29), the
derived predicates (R35), the interrupt pin (R41), the operating condition (43_mode_sequencer.md R210); and the flag
computation of a STATUS write (40_register_access.md R123). -/

namespace Sys2Proof.Machine

/-- `tx_full()`, Status bit 0 (R28). -/
def State.txFull (s : State) : Bool := s.txq.length == s.cfg.fifoDepth

/-- `rx_p_no()`, Status bits 3:1 (R27). -/
def State.rxPNo (s : State) : BitVec 3 :=
  match s.rxq with
  | [] => s.cfg.rxPNoEmpty
  | e :: _ => e.pipe

/-- `status_byte()` (R25). Bit 7 reads 0 by the spec's decision D15. -/
def State.statusByte (s : State) : Byte :=
  0#1 ++ BitVec.ofBool s.rxDr ++ BitVec.ofBool s.txDs ++ BitVec.ofBool s.maxRt ++ s.rxPNo ++ BitVec.ofBool s.txFull

/-- `FIFO_STATUS_HI(tx, rx)` (R29), read from the parameter table. -/
def fifoStatusHi (cfg : Config) (tx rx : Nat) : BitVec 7 :=
  match cfg.fifoStatusHi[tx]? with
  | some row =>
    match row[rx]? with
    | some v => v
    | none => Config.fifoStatusHiBeyond tx rx
  | none => Config.fifoStatusHiBeyond tx rx

/-- `fifo_status_byte()` (R29). -/
def State.fifoStatusByte (s : State) : Byte :=
  fifoStatusHi s.cfg s.txq.length s.rxq.length ++ BitVec.ofBool s.rxq.isEmpty

/-- `prim_rx()` (R35). -/
def State.primRx (s : State) : Bool := s.regs.config.getLsbD s.cfg.primRxBit

/-- `pwr_up()` (R35). -/
def State.pwrUp (s : State) : Bool := s.regs.config.getLsbD s.cfg.pwrUpBit

/-- `listening()` (R35). -/
def State.listening (s : State) : Bool := s.mode == .receive && s.ce == .high && s.pwrUp

/-- `arm_cond()` (R35). -/
def State.armCond (s : State) : Bool := s.mode == .transmit && s.ce == .high && s.pwrUp && !s.txq.isEmpty

/-- The mode a CONFIG byte selects (R24, R122, R201). -/
def modeOf (cfg : Config) (c : Byte) : Mode := if c.getLsbD cfg.primRxBit then .receive else .transmit

/-- The three flags after a STATUS write of `d`: a 1 clears, a 0 keeps, bits 7 and 3:0 are ignored (R123). -/
def State.clearFlags (d : Byte) (s : State) : State :=
  { s with rxDr := s.rxDr && !d.getLsbD 6, txDs := s.txDs && !d.getLsbD 5, maxRt := s.maxRt && !d.getLsbD 4 }

/-- The state of the specification (R20) and the parameters: the model's own fields, which are no state of the block (R45), at
fixed values. -/
def State.specPart (s : State) : State := { s with stimuli := [], rx := [], drawCount := 0 }

/-- The level of the interrupt pin (R41, R292): `IRQ_FN` of the state, which R20 lists; it cannot read the model's own fields
(log 12). -/
def State.irqPin (s : State) : Level := Config.irqFn s.specPart

/-- Whether chip-select is active: a frame is open exactly while it is (R38, R44). -/
def State.chipSelected (s : State) : Bool := s.fs != .idle

/-- The labels of R210. No rule reads one. -/
inductive OperatingCondition where
  | poweredDown | listening | idleInReceive | standbyII | transmitTrigger
  deriving DecidableEq, Repr

/-- The operating condition (R210). -/
def State.condition (s : State) : OperatingCondition :=
  if s.pwrUp then
    match s.mode, s.ce with
    | .receive, .high => .listening
    | .receive, .low => .idleInReceive
    | .transmit, .low => .standbyII
    | .transmit, .high => .transmitTrigger
  else .poweredDown

end Sys2Proof.Machine
end

