-- ==== Sys2Proof/Machine/Operands.lean ====
section
/-! DEFINITION. The operand forms: the bytes of a register as a frame reads them (`x[a]`, 00_scope.md R10, 10_state.md R22,
R25, R29, R30) and the bytes a frame writes (40_register_access.md R122, R125, R126; 20_memory.md R61, R65). -/

namespace Sys2Proof.Machine

/-- `x[a]` for a named register: its `width(a)` bytes, byte 0 first; composed for STATUS and FIFO_STATUS (R10). -/
def State.readReg (s : State) : RegName → List Byte
  | .config => [s.regs.config]
  | .enAa => [s.regs.enAa]
  | .enRxaddr => [s.regs.enRxaddr]
  | .setupAw => [s.regs.setupAw]
  | .setupRetr => [s.regs.setupRetr]
  | .rfCh => [s.regs.rfCh]
  | .rfSetup => [s.regs.rfSetup]
  | .status => [s.statusByte]
  | .rxAddrP0 => s.regs.rxAddrP0
  | .txAddr => s.regs.txAddr
  | .rxPwP0 => [s.regs.rxPwP0]
  | .fifoStatus => [s.fifoStatusByte]
  | .dynpd => [s.regs.dynpd]
  | .feature => [s.regs.feature]

/-- `x[a]` (R10); no bytes where no register is. -/
def State.x (s : State) (a : RegAddr) : List Byte :=
  match regAt a with
  | some r => s.readReg r
  | none => []

/-- A prefix write (R65, R125): byte `k` of the register takes data byte `k`, the bytes beyond the data keep their values,
and the register keeps its width. -/
def writeBytes (old new : List Byte) : List Byte := (new ++ old.drop new.length).take old.length

/-- The register file after a plain register took the byte `d`, all 8 bits (R23, R126). -/
def RegFile.setPlain (r : RegFile) (d : Byte) : RegName → RegFile
  | .enAa => { r with enAa := d }
  | .enRxaddr => { r with enRxaddr := d }
  | .setupAw => { r with setupAw := d }
  | .setupRetr => { r with setupRetr := d }
  | .rfCh => { r with rfCh := d }
  | .rfSetup => { r with rfSetup := d }
  | .rxPwP0 => { r with rxPwP0 := d }
  | .dynpd => { r with dynpd := d }
  | .feature => { r with feature := d }
  | .config | .status | .rxAddrP0 | .txAddr | .fifoStatus => r

end Sys2Proof.Machine
end

