-- ==== Sys2Proof/Machine/Ops.lean ====
section
/-! DEFINITION. The named operations over the state: taking the next stimulus, a draw (00_scope.md R12), raising a fault
(60_exceptions.md R280), the FIFOs (42_fifo_commands.md R164), arming (43_mode_sequencer.md R206), and opening and closing
a frame (30_encoding.md R99). -/

namespace Sys2Proof.Machine

/-- The next stimulus is used up. -/
def State.taking (s : State) (rest : List Stimulus) : State := { s with stimuli := rest }

/-- `draw()` (R12): a fresh free byte, and the state that counts it. -/
def State.drawByte (s : State) : Byte × State := (Config.draw s.drawCount, { s with drawCount := s.drawCount + 1 })

/-- `n` draws in a row. -/
def State.drawBytes (s : State) (n : Nat) : List Byte × State :=
  ((List.range n).map fun k => Config.draw (s.drawCount + k), { s with drawCount := s.drawCount + n })

/-- `raise Fault(reason)` (R280, R40): the mark is set and nothing else changes; there is no trap entry. -/
def State.raise (s : State) (r : Fault) : State := { s with fault := some r }

/-- A response byte goes out to the host (R9, R78). -/
def State.respond (s : State) (r : Byte) : State := { s with rx := s.rx ++ [r] }

/-- `arm()` (R206): sets `tx_armed` when `arm_cond()` holds, never clears it. -/
def State.arm (s : State) : State := if s.armCond then { s with txArmed := true } else s

/-- `MemWrite(TXQ, e)` (R10, R163): an entry joins the TX FIFO at its tail. -/
def State.txPush (s : State) (e : List Byte) : State := { s with txq := s.txq ++ [e] }

/-- The head of the TX FIFO leaves it (R207). -/
def State.txPop (s : State) : State := { s with txq := s.txq.tail }

/-- An entry joins the RX FIFO at its tail (R209). -/
def State.rxPush (s : State) (e : RxEntry) : State := { s with rxq := s.rxq ++ [e] }

/-- The head of the RX FIFO leaves it (R162). -/
def State.rxPop (s : State) : State := { s with rxq := s.rxq.tail }

/-- CSN_FALL (R99): a frame opens; the host's response buffer is empty again. -/
def State.openFrame (s : State) : State :=
  { s with fs := .cmd, fidx := 0, cmd := none, dbuf := [], rdl := none, rx := [] }

/-- The frame sequencer as CSN_RISE leaves it (R99). -/
def State.idleFrame (s : State) : State :=
  { s with fs := .idle, fidx := 0, cmd := none, dbuf := [], rdl := none }

/-- The command byte's part of BYTE at fidx = 0 after a legal decode (R99): the command is latched. -/
def State.latchCommand (s : State) (i : Instr) : State := { s with cmd := some i, fs := .data }

/-- `fidx <- fidx + 1` (R99, R39). -/
def State.advance (s : State) : State := { s with fidx := s.fidx + 1 }

/-- `dbuf <- dbuf ++ [b]` (R99). -/
def State.keepData (s : State) (b : Byte) : State := { s with dbuf := s.dbuf ++ [b] }

end Sys2Proof.Machine
end

