-- ==== Sys2Proof/Machine/Sequencer.lean ====
section
/-! DEFINITION. The frame sequencer CFD (30_encoding.md R99): what a command does in each bus step. A command's rule supplies
`latch`, `resp` and `commit` (R99); `runCommand` is the one operation that every command's meaning is made of. -/

namespace Sys2Proof.Machine

/-- What a command's rule supplies to the frame sequencer (R99). -/
structure CommandRule where
  /-- `latch(cmd)`: what byte 0 latches. -/
  latch : State → State
  /-- `resp(cmd, k)`: the response byte beside data byte `k`; a draw changes the count of draws. -/
  resp : Nat → State → Byte × State
  /-- `commit(cmd, dbuf)`: the state effect at CSN_RISE; it may raise a fault. -/
  commit : List Byte → State → State

/-- BYTE at fidx = 0, for a command byte that decodes to `i` (R99): the Status byte, fixed before the command is looked at,
then the latching. -/
def commandByte (i : Instr) (c : CommandRule) (s : State) : State :=
  (c.latch ((s.respond s.statusByte).latchCommand i)).advance

/-- The next move of a composite, which a raised fault ends: the faulting step had no other effect and no step follows
(R280). -/
def State.andThen (s : State) (f : State → State) : State := if s.fault.isSome then s else f s

/-- A response that may have drawn goes out. -/
def respondWith (p : Byte × State) : State := p.2.respond p.1

/-- BYTE at fidx = k + 1 (R99, R66): the length check, then the response, evaluated before `b` is stored. -/
def dataByte (i : Instr) (c : CommandRule) (b : Byte) (s : State) : State :=
  if i.maxData s.cfg ≤ s.fidx - 1 then s.raise (.lengthMismatch i (s.fidx - 1))
  else ((respondWith (c.resp (s.fidx - 1) s)).keepData b).advance

/-- BYTE steps for the bytes of a list, in order. -/
def dataBytes (i : Instr) (c : CommandRule) : List Byte → State → State
  | [], s => s
  | b :: bs, s => (dataByte i c b s).andThen (dataBytes i c bs)

/-- CSN_RISE (R99) with the commit `e`: the sequencer returns to Idle and `arm()` follows, unless the commit raised a
fault, which leaves everything as it was (R280). -/
def closeFrame (e : State → State) (s : State) : State := (e s).andThen fun t => t.idleFrame.arm

/-- CSN_RISE for the open frame of a command with this rule (R99). -/
def riseStep (c : CommandRule) (s : State) : State := closeFrame (c.commit s.dbuf) s

/-- BYTE for the command `i` (R99): its command byte or a data byte of it. -/
def byteStep (i : Instr) (c : CommandRule) (b : Byte) (s : State) : State :=
  if s.fidx = 0 then commandByte i c s else dataByte i c b s

/-- FRAME(tx) for a command byte that decodes to `i` and the data bytes `ds` (R11, R99): CSN_FALL, the BYTE steps and
CSN_RISE with no step between; a fault ends it where it is raised. -/
def frameStep (i : Instr) (c : CommandRule) (ds : List Byte) (s : State) : State :=
  (dataBytes i c ds (commandByte i c s.openFrame)).andThen (riseStep c)

/-- What the command `i` does in the bus step that comes next: its command byte, a data byte, its closing edge, or its whole
frame. No step after a fault (R280); no bus step where it is not enabled (R99, R326). -/
def runCommand (i : Instr) (c : CommandRule) (s : State) : Host.Outcome State Fault Refusal :=
  match s.fault with
  | some r => .fault r
  | none =>
    match s.stimuli with
    | .byte b :: rest => if s.fs = .idle then .refused .noFrameOpen else .next (byteStep i c b (s.taking rest))
    | .csnRise :: rest => if s.fs = .idle then .refused .noFrameOpen else .next (riseStep c (s.taking rest))
    | .frame (_ :: ds) :: rest =>
      if s.fs = .idle then .next (frameStep i c ds (s.taking rest)) else .refused .frameAlreadyOpen
    | _ => .refused .notACommandStep

/-- `resp` of a command that writes (R101), and of one without a data phase, where it is never reached: a draw. -/
def drawResponse (_ : Nat) (s : State) : Byte × State := s.drawByte

/-- Byte `k` of `bs`; a draw beyond its end, which the length check keeps a run from reaching. -/
def byteOrDraw (bs : List Byte) (k : Nat) (s : State) : Byte × State :=
  match bs[k]? with
  | some v => (v, s)
  | none => s.drawByte

end Sys2Proof.Machine
end

