-- ==== Sys2Proof/Machine/FifoCommands.lean ====
section
/-! DEFINITION. FLUSH_TX, FLUSH_RX, READ_PAYLOAD and WRITE_PAYLOAD (42_fifo_commands.md R160 to R163). -/

namespace Sys2Proof.Machine

/-- `commit(FLUSH_TX, dbuf)` (R160). -/
def commitFlushTx (s : State) : State := { s with txq := [], txArmed := false }

/-- The rule of FLUSH_TX (R160). -/
def flushTxRule : CommandRule where
  latch := fun s => s
  resp := drawResponse
  commit := fun _ s => commitFlushTx s

/-- FLUSH_TX (R160). -/
def execFlushTx (s : State) : Host.Outcome State Fault Refusal := runCommand .flushTx flushTxRule s

/-- `commit(FLUSH_RX, dbuf)` (R161). -/
def commitFlushRx (s : State) : State := { s with rxq := [] }

/-- The rule of FLUSH_RX (R161). -/
def flushRxRule : CommandRule where
  latch := fun s => s
  resp := drawResponse
  commit := fun _ s => commitFlushRx s

/-- FLUSH_RX (R161). -/
def execFlushRx (s : State) : Host.Outcome State Fault Refusal := runCommand .flushRx flushRxRule s

/-- `latch(READ_PAYLOAD)` (R162): the head of the RX FIFO, or none. -/
def latchReadPayload (s : State) : State := { s with rdl := s.rxq.head? }

/-- `resp(READ_PAYLOAD, k)` (R162): byte `k` of the latched entry, a draw when none is latched. -/
def respReadPayload (k : Nat) (s : State) : Byte × State :=
  match s.rdl with
  | some e => byteOrDraw e.payload k s
  | none => s.drawByte

/-- `commit(READ_PAYLOAD, dbuf)` (R162). -/
def commitReadPayload (dbuf : List Byte) (s : State) : State :=
  if s.rdl.isSome && !dbuf.isEmpty && s.cfg.readPayloadPops then s.rxPop else s

/-- The rule of READ_PAYLOAD (R162). -/
def readPayloadRule : CommandRule where
  latch := latchReadPayload
  resp := respReadPayload
  commit := commitReadPayload

/-- READ_PAYLOAD (R162). -/
def execReadPayload (s : State) : Host.Outcome State Fault Refusal := runCommand .readPayload readPayloadRule s

/-- `commit(WRITE_PAYLOAD, dbuf)` (R163): nothing without data, F5 on a full FIFO, else one entry whose missing bytes are
draws made now and then fixed. -/
def commitWritePayload (dbuf : List Byte) (s : State) : State :=
  if dbuf.isEmpty then s
  else if s.txFull then s.raise .txFifoOverflow
  else (s.drawBytes (payloadWidth - dbuf.length)).2.txPush (dbuf ++ (s.drawBytes (payloadWidth - dbuf.length)).1)

/-- The rule of WRITE_PAYLOAD (R163). -/
def writePayloadRule : CommandRule where
  latch := fun s => s
  resp := drawResponse
  commit := commitWritePayload

/-- WRITE_PAYLOAD (R163). -/
def execWritePayload (s : State) : Host.Outcome State Fault Refusal := runCommand .writePayload writePayloadRule s

end Sys2Proof.Machine
end

