-- ==== Sys2Proof/Machine/NopStatus.lean ====
section
/-! DEFINITION. The no-op/status command NOP (41_nop_status.md R150). -/

namespace Sys2Proof.Machine

/-- The rule of NOP (R150): it latches nothing and commits nothing; the host reads its Status byte. -/
def nopRule : CommandRule where
  latch := fun s => s
  resp := drawResponse
  commit := fun _ s => s

/-- NOP (R150). -/
def execNop (s : State) : Host.Outcome State Fault Refusal := runCommand .nop nopRule s

end Sys2Proof.Machine
end

