-- ==== Sys2Proof/Machine/RegisterAccess.lean ====
section
/-! DEFINITION. READ_REGISTER and WRITE_REGISTER (40_register_access.md R120 to R127). -/

namespace Sys2Proof.Machine

/-- `resp(READ_REGISTER(a), k) = x[a][k]`, in the state in which byte `k` is exchanged (R120, R127). -/
def respReadRegister (a : RegAddr) (k : Nat) (s : State) : Byte × State := byteOrDraw (s.x a) k s

/-- The rule of READ_REGISTER (R120): a pure read. -/
def readRegisterRule (a : RegAddr) : CommandRule where
  latch := fun s => s
  resp := respReadRegister a
  commit := fun _ s => s

/-- READ_REGISTER (R120). -/
def execReadRegister (a : RegAddr) (s : State) : Host.Outcome State Fault Refusal :=
  runCommand (.readRegister a) (readRegisterRule a) s

/-- Commit of a write to CONFIG (R122, R201): all 8 bits are stored and the mode follows PRIM_RX. -/
def commitConfig (d : Byte) (s : State) : State :=
  { s with regs := { s.regs with config := d }, mode := modeOf s.cfg d }

/-- Commit of a write to RX_ADDR_P0 (R125). -/
def commitRxAddrP0 (dbuf : List Byte) (s : State) : State :=
  { s with regs := { s.regs with rxAddrP0 := writeBytes s.regs.rxAddrP0 dbuf } }

/-- Commit of a write to TX_ADDR (R125). -/
def commitTxAddr (dbuf : List Byte) (s : State) : State :=
  { s with regs := { s.regs with txAddr := writeBytes s.regs.txAddr dbuf } }

/-- Commit of a write to a plain register (R126, R23). -/
def commitPlain (r : RegName) (d : Byte) (s : State) : State := { s with regs := s.regs.setPlain d r }

/-- Commit of a write whose first data byte is `d`, by register (R121 to R126). -/
def commitNamed (d : Byte) (dbuf : List Byte) (s : State) : RegName → State
  | .config => commitConfig d s
  | .status => s.clearFlags d
  | .fifoStatus => s.raise (.readOnlyRegister RegName.fifoStatus.addr)
  | .rxAddrP0 => commitRxAddrP0 dbuf s
  | .txAddr => commitTxAddr dbuf s
  | .enAa => commitPlain .enAa d s
  | .enRxaddr => commitPlain .enRxaddr d s
  | .setupAw => commitPlain .setupAw d s
  | .setupRetr => commitPlain .setupRetr d s
  | .rfCh => commitPlain .rfCh d s
  | .rfSetup => commitPlain .rfSetup d s
  | .rxPwP0 => commitPlain .rxPwP0 d s
  | .dynpd => commitPlain .dynpd d s
  | .feature => commitPlain .feature d s

/-- `commit(WRITE_REGISTER(a), dbuf)` (R121): nothing without a data byte (R65). -/
def commitWriteRegister (a : RegAddr) (dbuf : List Byte) (s : State) : State :=
  match dbuf with
  | [] => s
  | d :: _ =>
    match regAt a with
    | some r => commitNamed d dbuf s r
    | none => s

/-- The rule of WRITE_REGISTER (R121). -/
def writeRegisterRule (a : RegAddr) : CommandRule where
  latch := fun s => s
  resp := drawResponse
  commit := commitWriteRegister a

/-- WRITE_REGISTER (R121). -/
def execWriteRegister (a : RegAddr) (s : State) : Host.Outcome State Fault Refusal :=
  runCommand (.writeRegister a) (writeRegisterRule a) s

end Sys2Proof.Machine
end

