-- ==== Sys2Proof/Machine/Dispatch.lean ====
section
/-! DEFINITION. One arm per command (30_encoding.md R92): what the command does in the bus step that comes next. -/

namespace Sys2Proof.Machine

def exec (i : Instr) (s : State) : Host.Outcome State Fault Refusal :=
  match i with
  | .readRegister a => Sys2Proof.Machine.execReadRegister a s
  | .writeRegister a => Sys2Proof.Machine.execWriteRegister a s
  | .readPayload => Sys2Proof.Machine.execReadPayload s
  | .writePayload => Sys2Proof.Machine.execWritePayload s
  | .flushTx => Sys2Proof.Machine.execFlushTx s
  | .flushRx => Sys2Proof.Machine.execFlushRx s
  | .nop => Sys2Proof.Machine.execNop s

end Sys2Proof.Machine
end

