-- ==== Sys2Proof/Machine/ModeSequencer.lean ====
section
/-! DEFINITION. The steps that are no frames: the control line and the three radio-link events (43_mode_sequencer.md R200,
R206 to R209). -/

namespace Sys2Proof.Machine

/-- `CE(level)` (R200): always enabled; `arm()` follows. -/
def stepCe (level : Level) (s : State) : Host.Outcome State Fault Refusal := .next ({ s with ce := level } : State).arm

/-- `EV_TX_DS` (R207): guard `tx_armed = 1`. -/
def stepEvTxDs (s : State) : Host.Outcome State Fault Refusal :=
  if s.txArmed then .next ({ s.txPop with txDs := true, txArmed := false } : State).arm
  else .refused .eventNotEnabled

/-- `EV_MAX_RT` (R208): guard `tx_armed = 1`; the unsent entry stays at the head. -/
def stepEvMaxRt (s : State) : Host.Outcome State Fault Refusal :=
  if s.txArmed then .next ({ s with maxRt := true, txArmed := false } : State).arm
  else .refused .eventNotEnabled

/-- `EV_RX(p)` (R209): guard `listening()` and room in the RX FIFO; the pipe number is 0. `arm()` follows every event
(R206). -/
def stepEvRx (p : List Byte) (s : State) : Host.Outcome State Fault Refusal :=
  if p.length ≠ payloadWidth then .refused .notAPacket
  else if s.listening && decide (s.rxq.length < s.cfg.fifoDepth) then
    .next ({ s.rxPush ⟨0, p⟩ with rxDr := true } : State).arm
  else .refused .eventNotEnabled

end Sys2Proof.Machine
end

