-- ==== Sys2Proof/Machine/Fetch.lean ====
section
/-! DEFINITION. What the next stimulus asks of the block (00_scope.md R11, 30_encoding.md R99, R100): that a command run,
or a step that is no command's. -/

namespace Sys2Proof.Machine

/-- The reading of the next step: a command takes it, or it is settled here. -/
inductive Fetched where
  | run (i : Instr)
  | settled (o : Host.Outcome State Fault Refusal)

/-- BYTE at fidx = 0 with a byte that is no command (R97, R98, R99): the Status byte goes out, then the fault is raised. -/
def rejectByte (r : Fault) (s : State) : State := (s.respond s.statusByte).raise r

/-- A command byte in an open frame: the command, or the fault step of a byte that is none. -/
def fetchCommand (b : Byte) (s : State) : Fetched :=
  match decode s.cfg b with
  | .command i => .run i
  | .reserved a => .settled (.next (rejectByte (.reservedRegister a) s))
  | .illegal c => .settled (.next (rejectByte (.illegalOpcode c) s))

/-- CSN_RISE of a frame without a command: nothing commits (R99, R102). -/
def closeEmpty (s : State) : State := closeFrame (fun t => t) s

/-- What the next step is. No step after a fault (R280); with no stimulus the block waits (R320). -/
def fetch (s : State) : Fetched :=
  match s.fault with
  | some r => .settled (.fault r)
  | none =>
    match s.stimuli with
    | [] => .settled (.next s)
    | .csnFall :: rest =>
      if s.fs = .idle then .settled (.next (s.taking rest).openFrame) else .settled (.refused .frameAlreadyOpen)
    | .byte b :: rest =>
      if s.fs = .idle then .settled (.refused .noFrameOpen)
      else if s.fidx = 0 then fetchCommand b (s.taking rest)
      else
        match s.cmd with
        | some i => .run i
        | none => .settled (.refused .noCommandLatched)
    | .csnRise :: rest =>
      if s.fs = .idle then .settled (.refused .noFrameOpen)
      else
        match s.cmd with
        | some i => .run i
        | none => .settled (.next (closeEmpty (s.taking rest)))
    | .frame tx :: rest =>
      if s.fs = .idle then
        match tx with
        | [] => .settled (.next (closeEmpty (s.taking rest).openFrame))
        | b :: _ => fetchCommand b (s.taking rest).openFrame
      else .settled (.refused .frameAlreadyOpen)
    | .ce level :: rest => .settled (stepCe level (s.taking rest))
    | .evTxDs :: rest => .settled (stepEvTxDs (s.taking rest))
    | .evMaxRt :: rest => .settled (stepEvMaxRt (s.taking rest))
    | .evRx p :: rest => .settled (stepEvRx p (s.taking rest))

/-- The state whose next step is FRAME of a table word's instruction, its data bytes zeros: between frames, no fault. From
a state between frames and without a fault only the stimuli change. -/
def State.placeFrame (s : State) (nbits w : Nat) : State :=
  { s.idleFrame with fault := none, stimuli := .frame (tableWordFrame s.cfg nbits w) :: s.stimuli }

end Sys2Proof.Machine
end

