-- ==== Sys2Proof/Machine/Step.lean ====
section
/-! DEFINITION. One step of the machine: the next step of an agent (00_scope.md R11, 20_memory.md R71). -/

namespace Sys2Proof.Machine

/-- One step: the command that the next stimulus runs, or the step that is no command's. -/
def step (s : State) : Host.Outcome State Fault Refusal :=
  match fetch s with
  | .run i => exec i s
  | .settled o => o

/-- The state whose next step is FRAME of the table word's instruction with data bytes of zeros (log 20). -/
def State.withFetchWord (s : State) (nbits w : Nat) : State := s.placeFrame nbits w

end Sys2Proof.Machine
end

