-- ==== Sys2Proof/Machine/HostSequences.lean ====
section
/-! DEFINITION. The driver's operations as the steps they expand into (30_encoding.md R105, R106; 44_host_sequences.md R240
to R257; 60_exceptions.md R285, R289). Host software, no block hardware: no rule of the block reads anything here. -/

namespace Sys2Proof.Machine

/-- FRAME(tx) in micro-steps (R99): CSN_FALL, one BYTE per element, CSN_RISE. -/
def microSteps (tx : List Byte) : List Stimulus := .csnFall :: (tx.map .byte ++ [.csnRise])

/-- The bytes of a list, with their number. -/
def bytesOf (l : List Byte) : Vector Byte l.length := ⟨l.toArray, rfl⟩

/-- A frame of `1 + n` bytes: the command byte, then the data (00_scope.md R9). -/
def frameOf {n : Nat} (command : Byte) (data : Vector Byte n) : Vector Byte (n + 1) :=
  ⟨(command :: data.toList).toArray, by simp⟩

/-- The frame of `READ_REGISTER a, n` (R105, R241): `[addr & 0x1F]`, then zeros. -/
def readRegisterFrame (addr : Byte) (n : Nat) : Vector Byte (n + 1) := frameOf (addr &&& 0x1F#8) (.replicate n 0x00#8)

/-- The frame of `WRITE_REGISTER a, [d0 d1 ...]` (R105, R242): `[0x20 | (addr & 0x1F)]`, then the data. -/
def writeRegisterFrame {n : Nat} (addr : Byte) (data : Vector Byte n) : Vector Byte (n + 1) :=
  frameOf (0x20#8 ||| (addr &&& 0x1F#8)) data

/-- The frame of the generic command path (R151, R243): the opcode, then the payload. -/
def commandFrame {n : Nat} (opcode : Byte) (payload : Vector Byte n) : Vector Byte (n + 1) := frameOf opcode payload

/-- A register's address as the host's byte. -/
def hostAddr (r : RegName) : Byte := r.addr.setWidth 8

/-! ### The bus (R240, R285, R289) -/

/-- What becomes of a request of `n` bytes: it is delivered and the `n` response bytes come back; the bus stays busy; or the
transport fails with a code of its own, after no step at all or after the first `j` bytes of the frame, `0 ≤ j ≤ n`. -/
inductive Transport (n : Nat) where
  | delivered (rx : Vector Byte n)
  | busy
  | failed (code : Nat) (arrived : Option (Fin (n + 1)))
  deriving DecidableEq, Repr

/-- The host's errors (R285, with the spellings of 90_conflicts.md C2; the code is that of `TransportFailure(code)`, R240,
which gives no values of it). None is raised by the block. -/
inductive HostError where
  | busTimeout
  | busTransportFailure (code : Nat)
  | invalidArgument
  | modeTransitionFailure
  deriving DecidableEq, Repr

/-- What of a request reaches the block (R240, R289): a zero-length request and a busy bus nothing, a transport failure
nothing or any prefix of the frame. -/
def transact {n : Nat} (tx : Vector Byte n) : Transport n → List Stimulus
  | .delivered _ => if n = 0 then [] else [.frame tx.toList]
  | .busy => []
  | .failed _ none => []
  | .failed _ (some j) => if n = 0 then [] else microSteps (tx.toList.take j)

/-- What `transact` returns (R240): the response, as many bytes as the request, or the error and no byte. DESIGN CHOICE,
log 21: a zero-length request is answered with `invalidArgument` whatever the bus does; R240 gives no order among the two
errors. -/
def transactResult {n : Nat} (t : Transport n) : Except HostError (Vector Byte n) :=
  if n = 0 then .error .invalidArgument
  else
    match t with
    | .delivered rx => .ok rx
    | .busy => .error .busTimeout
    | .failed code _ => .error (.busTransportFailure code)

/-- The error of a transaction (R240), none for a delivered one. -/
def transactError {n : Nat} (t : Transport n) : Option HostError :=
  match transactResult t with
  | .ok _ => none
  | .error e => some e

/-- The response that the host reads when its frame of `n` bytes has closed in state `t`: the block's own `rx` (00_scope.md
R9, 20_memory.md R78). A delivered request is answered with it. -/
def hostReads (n : Nat) (t : State) : Option (Vector Byte n) :=
  if h : t.rx.length = n then some ⟨t.rx.toArray, h⟩ else none

/-- `(status, data)` of a codec operation (R241 to R243): the response, its first byte the Status byte. -/
def splitResponse {n : Nat} (rx : Vector Byte (n + 1)) : Byte × Vector Byte n :=
  (rx[0], ⟨rx.toList.tail.toArray, by simp⟩)

/-- What a codec operation returns (R241 to R243): `(status, data)`, or the error of its transaction. -/
def codecResult {n : Nat} (t : Transport (n + 1)) : Except HostError (Byte × Vector Byte n) :=
  (transactResult t).map splitResponse

/-- A request, what becomes of it, and whether the driver still sends those after it when it fails (log 21). -/
structure Transaction where
  {length : Nat}
  frame : Vector Byte length
  reply : Transport length
  goesOn : Bool
  deriving DecidableEq, Repr

/-- One or more transactions: what the block sees of them, and the error reported. -/
structure Sent where
  steps : List Stimulus
  error : Option HostError
  deriving DecidableEq, Repr

/-- One transaction. -/
def send {n : Nat} (tx : Vector Byte n) (t : Transport n) : Sent := ⟨transact tx t, transactError t⟩

/-- One transaction after another: after an error the rest is sent only if the driver goes on. DESIGN CHOICE, log 21: of two
errors the first is reported; the spec does not say which. -/
def Sent.andThen (goesOn : Bool) (a b : Sent) : Sent :=
  match a.error with
  | none => ⟨a.steps ++ b.steps, b.error⟩
  | some e => ⟨a.steps ++ (if goesOn then b.steps else []), some e⟩

/-- Transactions in order. DESIGN CHOICE, log 21: a driver that goes on after a failed one sends the next of them. -/
def sendAll : List Transaction → Sent
  | [] => ⟨[], none⟩
  | t :: rest => (send t.frame t.reply).andThen t.goesOn (sendAll rest)

/-- What the driver does where the source gives no path after a failed transaction: an argument of every operation that
has such a point, so that no answer is the model's (log 21). -/
structure DriverChoices where
  /-- `read_payload`, its transaction failed (R247, R255 step 5, R332): is the control line raised again? -/
  raisesAfterFailedRead : Bool
  /-- `transmit`, the flag clear of step 6 failed (R254): is the FLUSH_TX of that step still sent? -/
  flushesAfterFailedClear : Bool
  /-- `receive`, the STATUS write of step 1 failed (R255): does step 3 follow `to_receive`, or the failure? -/
  receivesAfterFailedReset : Bool
  /-- `cleanup`, one of its transactions failed (R252): are those after it still sent? One answer for each of the three. -/
  cleanupGoesOn : Vector Bool 3
  /-- `receive`, a cleanup failed (R255), also that after a failed read: does `receive` report it, or what it would have
  returned? -/
  reportsFailedCleanup : Bool
  /-- `receive`, the cleanup of step 6 failed (R255): is the control line raised again? -/
  raisesAfterFailedCleanup : Bool
  /-- `initialize`, one of its transactions failed (R256): are those after it still sent? One answer for each of the twelve. -/
  bootGoesOn : Vector Bool 12
  /-- `initialize`, one of its transactions failed (R256): is the control line raised? -/
  raisesAfterFailedBoot : Bool
  deriving DecidableEq, Repr

/-- What an operation amounts to: the host's own steps in order, the recorded mode it leaves (R257), and its result. Steps
of the radio link may stand among their micro-steps: `Interleaves`. -/
structure Driven (α : Type) where
  steps : List Stimulus
  recorded : Mode
  result : α
  deriving DecidableEq, Repr

/-- The steps of the two host agents (00_scope.md R11); the others are the radio link's. -/
def Stimulus.byHost : Stimulus → Bool
  | .evTxDs | .evMaxRt | .evRx _ => false
  | .csnFall | .byte _ | .csnRise | .frame _ | .ce _ => true

/-- A step of the host in micro-steps: a composite is written out (R99). -/
def Stimulus.microSteps : Stimulus → List Stimulus
  | .frame tx => Machine.microSteps tx
  | x => [x]

/-- `run` is the host's steps `host` with steps of the radio link anywhere among them (20_memory.md R74): between any two
micro-steps, inside a frame too, since each frame of `host` may stand in `run` as the composite or as its micro-steps. The
control line moves where the driver moves it: the host is one sequential agent (00_scope.md R11). -/
abbrev Interleaves (host run : List Stimulus) : Prop :=
  (run.filter Stimulus.byHost).flatMap Stimulus.microSteps = host.flatMap Stimulus.microSteps

/-- `status(device)` (R244): NOP. -/
def statusSeq (cfg : Config) : List Stimulus := [.frame (commandFrame cfg.nopOpcode #v[]).toList]

/-- `flush_tx()` (R245). -/
def flushTxSeq : List Stimulus := [.frame (commandFrame 0xE1#8 #v[]).toList]

/-- `flush_rx()` (R245). -/
def flushRxSeq : List Stimulus := [.frame (commandFrame 0xE2#8 #v[]).toList]

/-- `read_register` (R241). -/
def readRegisterSeq (addr : Byte) (len : Nat) : List Stimulus := [.frame (readRegisterFrame addr len).toList]

/-- `write_register` (R242). -/
def writeRegisterSeq {n : Nat} (addr : Byte) (data : Vector Byte n) : List Stimulus :=
  [.frame (writeRegisterFrame addr data).toList]

/-- The read of `rx_has_data()` (R246): `[17 00]`. -/
def rxHasDataFrame : Vector Byte 2 := readRegisterFrame (hostAddr .fifoStatus) 1

/-- `rx_has_data()` from the FIFO Status byte read (R246): `not (f & 0x01)`; none stands for a failed read. -/
def rxHasData : Option Byte → Bool
  | some f => !f.getLsbD 0
  | none => false

/-- The FIFO Status byte that the read of `rx_has_data()` returned (R246), none for a failed read. -/
def fifoStatusRead (t : Transport 2) : Option Byte :=
  match codecResult t with
  | .ok reply => some reply.2[0]
  | .error _ => none

/-- The frame of `read_payload(32)` (R247): `[61 d x32]`; the dummy bytes are the host's. -/
def readPayloadFrame (dummies : Vector Byte payloadWidth) : Vector Byte (payloadWidth + 1) := commandFrame 0x61#8 dummies

/-- `read_payload(32)` (R247): CE low, the read, CE high. After a failed read the source does not say whether CE is raised
(R255 step 5, R332): `DriverChoices.raisesAfterFailedRead`, log 21. -/
def readPayloadSeq (ch : DriverChoices) (dummies : Vector Byte payloadWidth) (t : Transport (payloadWidth + 1)) :
    List Stimulus :=
  .ce .low :: (transact (readPayloadFrame dummies) t ++
    (if (transactError t).isNone || ch.raisesAfterFailedRead then [.ce .high] else []))

/-- What `read_payload` returns (R247): the response without its leading Status byte, 32 bytes. -/
def readPayloadResult (t : Transport (payloadWidth + 1)) : Except HostError (Vector Byte payloadWidth) :=
  (codecResult t).map Prod.snd

/-- The bytes of `pad32` (R248): the payload's own bytes and as many padding bytes as 32 lacks, or 32 of its bytes where it
has more. The side of the padding, the padding byte and the end that is cut are free values (log 15). -/
def padBytes (bytes : List Byte) : List Byte :=
  let padding := List.replicate (payloadWidth - bytes.length) Config.padByte
  if bytes.length ≤ payloadWidth then (if Config.padsInFront then padding ++ bytes else bytes ++ padding)
  else if Config.cutsInFront then bytes.drop (bytes.length - payloadWidth)
  else bytes.take payloadWidth

theorem padBytes_length (bytes : List Byte) : (padBytes bytes).length = payloadWidth := by
  simp only [padBytes]
  split
  · split <;> simp <;> omega
  · split <;> simp <;> omega

/-- `pad32` (R248): exactly 32 bytes. -/
def pad32 (bytes : List Byte) : Vector Byte payloadWidth := ⟨(padBytes bytes).toArray, padBytes_length bytes⟩

/-- The frame of `write_payload(bytes)` (R248): `[A0] ++ pad32(bytes)`. -/
def writePayloadFrame (bytes : List Byte) : Vector Byte (payloadWidth + 1) := commandFrame 0xA0#8 (pad32 bytes)

/-- `write_payload(bytes)` (R248). -/
def writePayloadSeq (bytes : List Byte) : List Stimulus := [.frame (writePayloadFrame bytes).toList]

/-! ### Mode operations -/

/-- A CONFIG byte `c_tx` of the driver (44_host_sequences.md, opening). -/
abbrev isTransmitConfig (cfg : Config) (c : Byte) : Prop := c.getLsbD cfg.primRxBit = false ∧ c.getLsbD cfg.pwrUpBit = true

/-- A CONFIG byte `c_rx` of the driver (44_host_sequences.md, opening). -/
abbrev isReceiveConfig (cfg : Config) (c : Byte) : Prop := c.getLsbD cfg.primRxBit = true ∧ c.getLsbD cfg.pwrUpBit = true

/-- The frame of a CONFIG write (R249, R250): `[20 c]`. -/
def configFrame (c : Byte) : Vector Byte 2 := writeRegisterFrame (hostAddr .config) #v[c]

/-- `to_transmit` with the CONFIG byte `c` (R249, R204): nothing when the recorded mode is already Transmit. -/
def toTransmitSeq (recorded : Mode) (c : Byte) : List Stimulus :=
  match recorded with
  | .receive => [.ce .low, .frame (configFrame c).toList, .ce .low]
  | .transmit => []

/-- `to_receive` with the CONFIG byte `c` (R250, R204): nothing when the recorded mode is already Receive. -/
def toReceiveSeq (recorded : Mode) (c : Byte) : List Stimulus :=
  match recorded with
  | .transmit => [.ce .low, .frame (configFrame c).toList, .ce .high]
  | .receive => []

/-- A mode transition whose CONFIG transaction failed stops there (R205, R250): what the block then saw. -/
def abortedTransitionSeq (c : Byte) (t : Transport 2) : List Stimulus := .ce .low :: transact (configFrame c) t

/-- The host's recorded mode after a transition (R205, R249, R250): changed only when the register write succeeded. -/
def recordedAfter (recorded target : Mode) (ok : Bool) : Mode := if ok then target else recorded

/-- A mode transition, with what became of its CONFIG transaction (R205, R249, R250): `whole` is what it expands to. -/
def transition (recorded target : Mode) (whole : List Stimulus) (c : Byte) (t : Transport 2) : Driven (Option HostError) :=
  if recorded = target then ⟨[], recorded, none⟩
  else if (transactError t).isNone then ⟨whole, recordedAfter recorded target true, none⟩
  else ⟨abortedTransitionSeq c t, recordedAfter recorded target false, some .modeTransitionFailure⟩

/-- `to_transmit` (R249). -/
def toTransmit (recorded : Mode) (c : Byte) (t : Transport 2) : Driven (Option HostError) :=
  transition recorded .transmit (toTransmitSeq recorded c) c t

/-- `to_receive` (R250). -/
def toReceive (recorded : Mode) (c : Byte) (t : Transport 2) : Driven (Option HostError) :=
  transition recorded .receive (toReceiveSeq recorded c) c t

/-- The host's report of a CONFIG transaction is true (R257): reported successful, it committed; reported failed, it did
not, since fewer than its two bytes arrived (R205, R289). -/
def Transport.reportsTruly : Transport 2 → Bool
  | .failed _ (some j) => decide (j.val < 2)
  | .failed _ none | .delivered _ | .busy => true

/-! ### Flag clears, cleanup, pulse -/

/-- The frame of a STATUS write of `d` (R251): `[27 d]`. -/
def clearFrame (d : Byte) : Vector Byte 2 := writeRegisterFrame (hostAddr .status) #v[d]

/-- What becomes of the transactions of `cleanup` (R252). -/
structure CleanupReplies where
  flush : Transport 1
  rxDr : Transport 2
  status : Transport 2
  deriving DecidableEq, Repr

/-- The transactions of `cleanup` (R252, C1): FLUSH_RX, "clear RX_DR", "clear status bits". -/
def cleanupTransactions (goesOn : Vector Bool 3) (r : CleanupReplies) : List Transaction :=
  [⟨commandFrame 0xE2#8 #v[], r.flush, goesOn[0]⟩, ⟨clearFrame 0x40#8, r.rxDr, goesOn[1]⟩,
    ⟨clearFrame 0x70#8, r.status, goesOn[2]⟩]

/-- `cleanup` (R252), with what became of each transaction. -/
def cleanup (ch : DriverChoices) (replies : CleanupReplies) : Sent := sendAll (cleanupTransactions ch.cleanupGoesOn replies)

/-- `cleanup` whole (R252). -/
def cleanupSeq : List Stimulus := flushRxSeq ++ [.frame (clearFrame 0x40#8).toList, .frame (clearFrame 0x70#8).toList]

/-- `pulse` (R253); the 10 microseconds are the host's (R329). -/
def pulseSeq : List Stimulus := [.ce .high, .ce .low]

/-! ### transmit -/

/-- What `transmit` returns (R254). -/
inductive TransmitOutcome where
  | sent | maxRetransmitsExceeded | pending | error (e : HostError)
  deriving DecidableEq, Repr

/-- What becomes of the transactions of `transmit` (R254): the load (step 2), the CONFIG writes (steps 3 and 7), the poll
(step 5), the flag clear and the flush (step 6). -/
structure TransmitReplies where
  load : Transport (payloadWidth + 1)
  toTx : Transport 2
  poll : Transport 1
  clear : Transport 2
  flush : Transport 1
  toRx : Transport 2
  deriving DecidableEq, Repr

/-- Whether `transmit` takes the payload (R254): 1 to 32 bytes. -/
def transmitAccepts (payload : List Byte) : Bool := decide (1 ≤ payload.length ∧ payload.length ≤ payloadWidth)

/-- `transmit`, step 6, from the polled Status byte (R254, D41): bit 5 first, bit 4 only if bit 5 is clear. -/
def transmitOutcome (s : Byte) : TransmitOutcome :=
  if s.getLsbD 5 then .sent else if s.getLsbD 4 then .maxRetransmitsExceeded else .pending

/-- `transmit`, what step 6 sends for an outcome (R254). -/
def transmitClears (ch : DriverChoices) (r : TransmitReplies) : TransmitOutcome → List Transaction
  | .sent => [⟨clearFrame 0x20#8, r.clear, false⟩]
  | .maxRetransmitsExceeded => [⟨clearFrame 0x10#8, r.clear, ch.flushesAfterFailedClear⟩, ⟨commandFrame 0xE1#8 #v[], r.flush, false⟩]
  | .pending => []
  | .error _ => []

/-- `transmit`, step 7, "regardless of outcome": a hard failure of step 2, 5 or 6 is one of the outcomes, since a failed
transmit leaves the Device in Receive (R254, R285). DEDUCED, log 21: a failure of this step is not in what `transmit`
returns ("plus any hard transport failure from steps 2-6"). -/
def transmitReturn (steps : List Stimulus) (recorded : Mode) (outcome : TransmitOutcome) (cRx : Byte) (r : TransmitReplies) :
    Driven TransmitOutcome :=
  let back := toReceive recorded cRx r.toRx
  ⟨steps ++ back.steps, back.recorded, outcome⟩

/-- `transmit`, steps 6 and 7, from the polled Status byte (R254). -/
def transmitSettle (ch : DriverChoices) (steps : List Stimulus) (recorded : Mode) (polled : Byte) (cRx : Byte)
    (r : TransmitReplies) : Driven TransmitOutcome :=
  let clears := sendAll (transmitClears ch r (transmitOutcome polled))
  transmitReturn (steps ++ clears.steps) recorded (clears.error.elim (transmitOutcome polled) .error) cRx r

/-- `transmit`, steps 4 to 7 (R254). -/
def transmitPulse (cfg : Config) (ch : DriverChoices) (steps : List Stimulus) (recorded : Mode) (cRx : Byte)
    (r : TransmitReplies) : Driven TransmitOutcome :=
  let polled := steps ++ (pulseSeq ++ transact (commandFrame cfg.nopOpcode #v[]) r.poll)
  match codecResult r.poll with
  | .ok reply => transmitSettle ch polled recorded reply.1 cRx r
  | .error e => transmitReturn polled recorded (.error e) cRx r

/-- `transmit` (R254). A payload of a wrong length is refused and sends nothing; a failure of step 3
stops it, with Receive still the recorded mode; after any other failure step 7 follows. -/
def transmit (cfg : Config) (ch : DriverChoices) (recorded : Mode) (payload : List Byte) (cTx cRx : Byte)
    (r : TransmitReplies) : Driven TransmitOutcome :=
  if transmitAccepts payload then
    let load := send (writePayloadFrame payload) r.load
    match load.error with
    | some e => transmitReturn (.ce .low :: load.steps) recorded (.error e) cRx r
    | none =>
      let toTx := toTransmit recorded cTx r.toTx
      match toTx.result with
      | some e => ⟨.ce .low :: (load.steps ++ toTx.steps), toTx.recorded, .error e⟩
      | none => transmitPulse cfg ch (.ce .low :: (load.steps ++ toTx.steps)) toTx.recorded cRx r
  else ⟨[], recorded, .error .invalidArgument⟩

/-! ### receive -/

/-- What `receive` returns (R255): the payload, `NoData`, or a failure. -/
inductive ReceiveOutcome where
  | payload (bytes : Vector Byte payloadWidth)
  | noData
  | failure (e : HostError)
  deriving DecidableEq, Repr

/-- What becomes of the transactions of `receive` (R255): the STATUS write (step 1), the CONFIG write (step 2), the
FIFO_STATUS read (step 3), the payload read (step 4), the cleanup. -/
structure ReceiveReplies where
  reset : Transport 2
  toRx : Transport 2
  probe : Transport 2
  payload : Transport (payloadWidth + 1)
  cleanup : CleanupReplies
  deriving DecidableEq, Repr

/-- What `receive` returns after its cleanup (R255). Whether a failed cleanup is reported is
`DriverChoices.reportsFailedCleanup`, log 21. -/
def afterCleanup (ch : DriverChoices) (outcome : ReceiveOutcome) (c : Sent) : ReceiveOutcome :=
  match c.error with
  | some e => if ch.reportsFailedCleanup then .failure e else outcome
  | none => outcome

/-- `receive`, steps 4 to 6 (R255): the read; after a failed one the bare cleanup, after a good one the cleanup between a
drop and a raise of CE (R332). The CE level of the cleanup after a failed read is open: `readPayloadSeq`, log 21. So is
which error comes back when that cleanup fails too: `afterCleanup`, log 21. -/
def receiveRead (ch : DriverChoices) (dummies : Vector Byte payloadWidth) (r : ReceiveReplies) :
    List Stimulus × ReceiveOutcome :=
  let c := cleanup ch r.cleanup
  match readPayloadResult r.payload with
  | .ok bytes =>
    (readPayloadSeq ch dummies r.payload ++
      (.ce .low :: (c.steps ++ (if c.error.isNone || ch.raisesAfterFailedCleanup then [.ce .high] else []))),
     afterCleanup ch (.payload bytes) c)
  | .error e => (readPayloadSeq ch dummies r.payload ++ c.steps, afterCleanup ch (.failure e) c)

/-- `receive`, steps 3 to 6 (R255): a failed FIFO_STATUS read is "no data" (R246). -/
def receivePoll (ch : DriverChoices) (dummies : Vector Byte payloadWidth) (r : ReceiveReplies) :
    List Stimulus × ReceiveOutcome :=
  let rest :=
    if rxHasData (fifoStatusRead r.probe) then receiveRead ch dummies r
    else ((cleanup ch r.cleanup).steps, afterCleanup ch .noData (cleanup ch r.cleanup))
  (transact rxHasDataFrame r.probe ++ rest.1, rest.2)

/-- `receive` (R255). After a failed step 1 `to_receive` still comes, since a failed receive leaves the Device in Receive
(R285); whether steps 3 to 6 do is `DriverChoices.receivesAfterFailedReset`, log 21. DESIGN CHOICE, log 21: a failed
`to_receive`, after which R255 gives no path (R250 stops `to_receive` itself), ends `receive` with its error, and that error
is the one returned where step 1 failed too; where `receive` goes on after a failed step 1, that failure is not reported. -/
def receive (ch : DriverChoices) (recorded : Mode) (cRx : Byte) (dummies : Vector Byte payloadWidth) (r : ReceiveReplies) :
    Driven ReceiveOutcome :=
  let reset := send (clearFrame 0x70#8) r.reset
  let toRx := toReceive recorded cRx r.toRx
  match toRx.result, reset.error, ch.receivesAfterFailedReset with
  | some e, _, _ => ⟨reset.steps ++ toRx.steps, toRx.recorded, .failure e⟩
  | none, some e, false => ⟨reset.steps ++ toRx.steps, toRx.recorded, .failure e⟩
  | none, _, _ =>
    let rest := receivePoll ch dummies r
    ⟨reset.steps ++ (toRx.steps ++ rest.1), toRx.recorded, rest.2⟩

/-! ### initialize -/

/-- The bytes the boot sequence writes (R256); the source gives `rfCh = 0x02` only. -/
structure BootBytes where
  config : Byte
  setupAw : Byte
  setupRetr : Byte
  rxAddrP0 : List Byte
  txAddr : List Byte
  rfCh : Byte
  rfSetup : Byte
  dynpd : Byte
  feature : Byte
  enAa : Byte
  deriving DecidableEq, Repr

/-- What R256 asks of the bytes: CONFIG has PWR_UP = 1 and, so that the sequence ends in Receive, PRIM_RX = 1; the pipe
addresses have `AW` bytes. DESIGN CHOICE, log 16: the one CONFIG write of the list carries PRIM_RX = 1. -/
abbrev BootBytes.wf (cfg : Config) (v : BootBytes) : Prop :=
  isReceiveConfig cfg v.config ∧ v.rxAddrP0.length = cfg.aw ∧ v.txAddr.length = cfg.aw

/-- The register writes of the boot sequence, in the source's order (R256). -/
def bootWrites (v : BootBytes) : List (RegName × List Byte) :=
  [(.config, [v.config]), (.setupAw, [v.setupAw]), (.setupRetr, [v.setupRetr]), (.rxAddrP0, v.rxAddrP0), (.txAddr, v.txAddr),
    (.rfCh, [v.rfCh]), (.rfSetup, [v.rfSetup]), (.dynpd, [v.dynpd]), (.feature, [v.feature]), (.enAa, [v.enAa]),
    (.status, [0x70#8])]

/-- The frames of the boot sequence (R256): the register writes, then FLUSH_RX. -/
def bootFrames (v : BootBytes) : List (List Byte) :=
  (bootWrites v).map (fun w => (writeRegisterFrame (hostAddr w.1) (bytesOf w.2)).toList) ++ [(commandFrame 0xE2#8 #v[]).toList]

/-- The boot sequence whole (R256). -/
def initializeSeq (v : BootBytes) : List Stimulus := .ce .low :: ((bootFrames v).map .frame ++ [.ce .high])

/-- What becomes of the transactions of the boot sequence (R256). -/
structure BootReplies (v : BootBytes) where
  config : Transport 2
  setupAw : Transport 2
  setupRetr : Transport 2
  rxAddrP0 : Transport (v.rxAddrP0.length + 1)
  txAddr : Transport (v.txAddr.length + 1)
  rfCh : Transport 2
  rfSetup : Transport 2
  dynpd : Transport 2
  feature : Transport 2
  enAa : Transport 2
  status : Transport 2
  flush : Transport 1
  deriving DecidableEq, Repr

/-- The transactions of the boot sequence (R256); their frames are `bootFrames`. -/
def bootTransactions (goesOn : Vector Bool 12) (v : BootBytes) (r : BootReplies v) : List Transaction :=
  [⟨writeRegisterFrame (hostAddr .config) #v[v.config], r.config, goesOn[0]⟩,
    ⟨writeRegisterFrame (hostAddr .setupAw) #v[v.setupAw], r.setupAw, goesOn[1]⟩,
    ⟨writeRegisterFrame (hostAddr .setupRetr) #v[v.setupRetr], r.setupRetr, goesOn[2]⟩,
    ⟨writeRegisterFrame (hostAddr .rxAddrP0) (bytesOf v.rxAddrP0), r.rxAddrP0, goesOn[3]⟩,
    ⟨writeRegisterFrame (hostAddr .txAddr) (bytesOf v.txAddr), r.txAddr, goesOn[4]⟩,
    ⟨writeRegisterFrame (hostAddr .rfCh) #v[v.rfCh], r.rfCh, goesOn[5]⟩,
    ⟨writeRegisterFrame (hostAddr .rfSetup) #v[v.rfSetup], r.rfSetup, goesOn[6]⟩,
    ⟨writeRegisterFrame (hostAddr .dynpd) #v[v.dynpd], r.dynpd, goesOn[7]⟩,
    ⟨writeRegisterFrame (hostAddr .feature) #v[v.feature], r.feature, goesOn[8]⟩,
    ⟨writeRegisterFrame (hostAddr .enAa) #v[v.enAa], r.enAa, goesOn[9]⟩,
    ⟨clearFrame 0x70#8, r.status, goesOn[10]⟩,
    ⟨commandFrame 0xE2#8 #v[], r.flush, goesOn[11]⟩]

/-- What `initialize` amounts to: the mode it records is there only once the `Device` is (R256). -/
structure Booted where
  steps : List Stimulus
  recorded : Option Mode
  error : Option HostError
  deriving DecidableEq, Repr

/-- `initialize` (R256), with what became of each transaction: when all succeed the host records Receive. What follows a
failed one is open: `DriverChoices.bootGoesOn` and `raisesAfterFailedBoot`, log 21; no `Device` is then constructed. -/
def boot (ch : DriverChoices) (v : BootBytes) (replies : BootReplies v) : Booted :=
  let sent := sendAll (bootTransactions ch.bootGoesOn v replies)
  match sent.error with
  | none => ⟨.ce .low :: (sent.steps ++ [.ce .high]), some .receive, none⟩
  | some e => ⟨.ce .low :: (sent.steps ++ (if ch.raisesAfterFailedBoot then [.ce .high] else [])), none, some e⟩

end Sys2Proof.Machine
end

