-- ==== Sys2Proof/Safety.lean ====
section
/-! DEFINITION. What the statements are made of: the invariant of 10_state.md R42, the situations in which a step of each
kind is enabled, and the states a whole frame leaves. -/

namespace Sys2Proof.Machine

/-- R42 INV1. -/
abbrev Inv1 (s : State) : Prop := s.mode = .receive ↔ s.primRx = true

/-- R42 INV2. -/
abbrev Inv2 (s : State) : Prop := s.txq.length ≤ s.cfg.fifoDepth ∧ s.rxq.length ≤ s.cfg.fifoDepth

/-- R42 INV3. -/
abbrev Inv3 (s : State) : Prop := ∀ e ∈ s.rxq, e.pipe = 0#3

/-- R42 INV4. -/
abbrev Inv4 (s : State) : Prop := s.txArmed = true → s.txq ≠ []

/-- R42 INV5. -/
abbrev Inv5 (s : State) : Prop :=
  match s.fs with
  | .idle => s.fidx = 0 ∧ s.cmd = none ∧ s.dbuf = [] ∧ s.rdl = none
  | .cmd => s.fidx = 0 ∧ s.cmd = none ∧ s.dbuf = [] ∧ s.rdl = none
  | .data => 1 ≤ s.fidx ∧ s.cmd.isSome = true ∧ s.dbuf.length = s.fidx - 1

/-- R42 INV6. -/
abbrev Inv6 (s : State) : Prop := ∀ i ∈ s.cmd, s.dbuf.length ≤ i.maxData s.cfg

/-- R42 INV7. -/
abbrev Inv7 (s : State) : Prop := s.rdl.isSome = true → s.cmd = some .readPayload ∧ s.rxq ≠ [] ∧ s.rdl = s.rxq.head?

/-- The latched command is a command of the block (R38). -/
abbrev InvCmd (s : State) : Prop := ∀ i ∈ s.cmd, i.wf = true

/-- The address registers hold `AW` bytes (R22, R30). -/
abbrev RegFile.widths (aw : Nat) (r : RegFile) : Prop := r.rxAddrP0.length = aw ∧ r.txAddr.length = aw

/-- Every FIFO entry holds `PW` bytes (R36, R37). -/
abbrev InvEntries (s : State) : Prop :=
  (∀ e ∈ s.txq, e.length = payloadWidth) ∧ ∀ e ∈ s.rxq, e.payload.length = payloadWidth

/-- A transmission is armed whenever `arm_cond()` holds: what R206 gives with the places at which it calls `arm()`. -/
abbrev InvArmed (s : State) : Prop := s.armCond = true → s.txArmed = true

/-- The invariant of R42, with the well-formedness that R6, R22, R36, R37 and R38 give and the rule of `arm()` (R206). It
says nothing of `fault`: a raised fault changes no other state (R280). -/
structure Inv (s : State) : Prop where
  cfgWf : s.cfg.wf
  inv1 : Inv1 s
  inv2 : Inv2 s
  inv3 : Inv3 s
  inv4 : Inv4 s
  inv5 : Inv5 s
  inv6 : Inv6 s
  inv7 : Inv7 s
  cmdWf : InvCmd s
  widths : s.regs.widths s.cfg.aw
  entries : InvEntries s
  armed : InvArmed s

/-- FRAME with the command byte `b` and the data bytes `ds` is the next step, and enabled (R99, R326). -/
abbrev FrameNext (s : State) (b : Byte) (ds : List Byte) (rest : List Stimulus) : Prop :=
  s.fault = none ∧ s.fs = .idle ∧ s.stimuli = .frame (b :: ds) :: rest

/-- A command byte in an open frame is the next step, and enabled (R99). -/
abbrev CommandByteNext (s : State) (b : Byte) (rest : List Stimulus) : Prop :=
  s.fault = none ∧ s.fs ≠ .idle ∧ s.fidx = 0 ∧ s.stimuli = .byte b :: rest

/-- A data byte in an open frame is the next step, and enabled (R99). -/
abbrev DataByteNext (s : State) (b : Byte) (rest : List Stimulus) : Prop :=
  s.fault = none ∧ s.fs ≠ .idle ∧ s.fidx ≠ 0 ∧ s.stimuli = .byte b :: rest

/-- CSN_RISE is the next step, and enabled (R99). -/
abbrev RiseNext (s : State) (rest : List Stimulus) : Prop :=
  s.fault = none ∧ s.fs ≠ .idle ∧ s.stimuli = .csnRise :: rest

/-- `s` between frames, the next stimulus used up, with the response bytes `rx` and a count of draws: what a frame leaves
but for its command's effect and `arm()` (R99, R9). -/
def State.framed (s : State) (rest : List Stimulus) (rx : List Byte) (draws : Nat) : State :=
  { s with fs := .idle, fidx := 0, cmd := none, dbuf := [], rdl := none, stimuli := rest, rx := rx, drawCount := draws }

/-- `s` with CSN_RISE used up and the frame sequencer Idle: what the closing edge leaves but for the commit and `arm()`
(R99). -/
def State.closed (s : State) (rest : List Stimulus) : State :=
  { s with fs := .idle, fidx := 0, cmd := none, dbuf := [], rdl := none, stimuli := rest }

/-- The next step commits a write of register `r` with data: the closing edge of its frame, or the whole frame (R72, R99). -/
def CommitsWrite (s : State) (r : RegName) : Prop :=
  (∃ a rest, s.stimuli = .csnRise :: rest ∧ s.cmd = some (.writeRegister a) ∧ regAt a = some r ∧ s.dbuf ≠ []) ∨
  (∃ b ds rest a, s.stimuli = .frame (b :: ds) :: rest ∧ decode s.cfg b = .command (.writeRegister a) ∧ regAt a = some r ∧
    ds ≠ [])

/-- The table of fault reasons (R281): the micro-step that comes next in `s` raises `r`. -/
inductive Raises (s : State) : Fault → Prop
  /-- F1: a command byte at or above 0x40 that is none of the fixed opcodes. -/
  | f1 (b : Byte) (rest : List Stimulus) (h : CommandByteNext s b rest) (hb : 0x40 ≤ b.toNat)
      (hn : b ≠ 0x61#8 ∧ b ≠ 0xA0#8 ∧ b ≠ 0xE1#8 ∧ b ≠ 0xE2#8 ∧ b ≠ s.cfg.nopOpcode) : Raises s (.illegalOpcode b)
  /-- F2: a command byte below 0x40 whose address is not catalogued. -/
  | f2 (b : Byte) (rest : List Stimulus) (h : CommandByteNext s b rest) (hb : b.toNat < 0x40)
      (hn : catalogued (b.extractLsb' 0 5) = false) : Raises s (.reservedRegister (b.extractLsb' 0 5))
  /-- F3: data index `k = fidx - 1` at or beyond `maxdata(cmd)`. -/
  | f3 (b : Byte) (rest : List Stimulus) (i : Instr) (h : DataByteNext s b rest) (hc : s.cmd = some i)
      (hk : i.maxData s.cfg ≤ s.fidx - 1) : Raises s (.lengthMismatch i (s.fidx - 1))
  /-- F4: a write of FIFO_STATUS with data commits. -/
  | f4 (rest : List Stimulus) (h : RiseNext s rest) (hc : s.cmd = some (.writeRegister 0x17#5)) (hd : 1 ≤ s.dbuf.length) :
      Raises s (.readOnlyRegister 0x17#5)
  /-- F5: a payload commits into a full TX FIFO. -/
  | f5 (rest : List Stimulus) (h : RiseNext s rest) (hc : s.cmd = some .writePayload) (hd : 1 ≤ s.dbuf.length)
      (hq : s.txq.length = s.cfg.fifoDepth) : Raises s .txFifoOverflow

/-- The next step exchanges a data byte of a READ_REGISTER of a plain register: such a byte alone, or in a whole frame. -/
def ReadsPlainNext (s : State) : Prop :=
  ∃ a r, regAt a = some r ∧ r.isPlain = true ∧
    ((∃ b rest, s.stimuli = .byte b :: rest ∧ s.fidx ≠ 0 ∧ s.cmd = some (.readRegister a)) ∨
     (∃ b ds rest, s.stimuli = .frame (b :: ds) :: rest ∧ ds ≠ [] ∧ decode s.cfg b = .command (.readRegister a)))

/-- `s` with the nine plain registers (R23) blanked: what two states have in common that differ only in their values. -/
def State.blankPlain (s : State) : State :=
  { s with regs := { s.regs with enAa := 0, enRxaddr := 0, setupAw := 0, setupRetr := 0, rfCh := 0, rfSetup := 0,
                                 rxPwP0 := 0, dynpd := 0, feature := 0 } }

/-- `s` with the response bytes blanked. -/
def State.blankRx (s : State) : State := { s with rx := [] }

/-- An outcome with its next state seen through `f`. -/
def mapNext (f : State → State) : Host.Outcome State Fault Refusal → Host.Outcome State Fault Refusal
  | .next s => .next (f s)
  | .fault r => .fault r
  | .refused r => .refused r

/-- A run is safe up to a state when no fault has been raised in it (R280). -/
abbrev State.faultFree (s : State) : Prop := s.fault = none

end Sys2Proof.Machine
end

