-- ==== Sys2Proof/Certificates/Slice0/Obligations.lean ====
section
/-! DEFINITION. The statements for the provers. Each docstring names the rule or section of spec/ it formalises. `s`, `t`
range over all states, so a statement about a next step covers every order in which the agents' steps may come
(20_memory.md R74). -/

open Sys2Proof Sys2Proof.Machine

/-! ### Encoding and decoding -/

/-- 30_encoding.md, opcode map: the decoder reads back every well-formed command from its command byte, under every
parameter set. -/
def Obligations.DecodeInvertsEncode : Prop :=
  ∀ (cfg : Config) (i : Instr), cfg.wf → i.wf = true → decode cfg (encode cfg i) = .command i

/-- 30_encoding.md, opcode map: each command byte has one meaning; a byte that decodes to a command is that command's
encoding, and the command is well-formed. -/
def Obligations.EncodeInvertsDecode : Prop :=
  ∀ (cfg : Config) (b : Byte) (i : Instr), decode cfg b = .command i → i.wf = true ∧ encode cfg i = b

/-- 30_encoding.md, decode: which bytes are illegal and which name a reserved address. -/
def Obligations.RejectedCommandBytes : Prop :=
  ∀ (cfg : Config) (b : Byte),
    (decode cfg b = .illegal b ↔
      0x40 ≤ b.toNat ∧ b ≠ 0x61#8 ∧ b ≠ 0xA0#8 ∧ b ≠ 0xE1#8 ∧ b ≠ 0xE2#8 ∧ b ≠ cfg.nopOpcode) ∧
    (∀ a, decode cfg b = .reserved a ↔ b.toNat < 0x40 ∧ catalogued a = false ∧ a = b.extractLsb' 0 5) ∧
    (∀ c, decode cfg b = .illegal c → c = b)

/-- 30_encoding.md, decode: the census of the 256 command bytes, under every parameter set. -/
def Obligations.CommandByteCensus : Prop :=
  ∀ cfg : Config, cfg.wf →
    ((List.range 256).countP fun n => match decode cfg (BitVec.ofNat 8 n) with | .command (.readRegister _) => true | _ => false) = 14 ∧
    ((List.range 256).countP fun n => match decode cfg (BitVec.ofNat 8 n) with | .command (.writeRegister _) => true | _ => false) = 14 ∧
    ((List.range 256).countP fun n => match decode cfg (BitVec.ofNat 8 n) with | .reserved _ => true | _ => false) = 36 ∧
    ((List.range 256).countP fun n => match decode cfg (BitVec.ofNat 8 n) with
      | .command .readPayload | .command .writePayload | .command .flushTx | .command .flushRx | .command .nop => true
      | _ => false) = 5 ∧
    ((List.range 256).countP fun n => match decode cfg (BitVec.ofNat 8 n) with | .illegal _ => true | _ => false) = 187

/-- 30_encoding.md, opcode map, and 95_test_vectors.md: words written out bit by bit (sanity). -/
def Obligations.SampleWordsDecode : Prop :=
  ∀ cfg : Config, cfg.wf →
    decode cfg 0b00000101#8 = .command (.readRegister 0x05#5) ∧ decode cfg 0b00100111#8 = .command (.writeRegister 0x07#5) ∧
    decode cfg 0b01100001#8 = .command .readPayload ∧ decode cfg 0b10100000#8 = .command .writePayload ∧
    decode cfg 0b11100001#8 = .command .flushTx ∧ decode cfg 0b11100010#8 = .command .flushRx ∧
    decode cfg cfg.nopOpcode = .command .nop ∧ decode cfg 0b00101011#8 = .reserved 0x0B#5

/-- 30_encoding.md, section 3: `maxdata(cmd)`, and that every value is at most 32. -/
def Obligations.MaxDataValues : Prop :=
  ∀ cfg : Config, cfg.wf →
    (∀ a, catalogued a = true →
      (Instr.readRegister a).maxData cfg = (if a = 0x0A#5 ∨ a = 0x10#5 then cfg.aw else 1) ∧
      (Instr.writeRegister a).maxData cfg = (if a = 0x0A#5 ∨ a = 0x10#5 then cfg.aw else 1)) ∧
    Instr.readPayload.maxData cfg = 32 ∧ Instr.writePayload.maxData cfg = 32 ∧ Instr.flushTx.maxData cfg = 0 ∧
    Instr.flushRx.maxData cfg = 0 ∧ Instr.nop.maxData cfg = 0 ∧ ∀ i : Instr, i.maxData cfg ≤ 32

/-! ### A step runs the decoded instruction -/

/-- 30_encoding.md, frame sequencer: `step` is `exec` of the command whose byte comes in, of the latched command at its
data bytes and at its closing edge, and of the command of a whole frame. -/
def Obligations.StepRunsDecodedInstruction : Prop :=
  ∀ (s : State) (i : Instr) (b : Byte) (ds : List Byte) (rest : List Stimulus),
    (CommandByteNext s b rest → decode s.cfg b = .command i → step s = exec i s) ∧
    (DataByteNext s b rest → s.cmd = some i → step s = exec i s) ∧
    (RiseNext s rest → s.cmd = some i → step s = exec i s) ∧
    (FrameNext s b ds rest → decode s.cfg b = .command i → step s = exec i s)

/-- The opcode table's words: the step after `withFetchWord` runs the table word's instruction and gives a next state. -/
def Obligations.TableWordIsTheNextInstruction : Prop :=
  ∀ (s : State) (w : Nat) (i : Instr), decode s.cfg (BitVec.ofNat 8 w) = .command i →
    step (s.withFetchWord 8 w) = exec i (s.withFetchWord 8 w) ∧ ∃ t, step (s.withFetchWord 8 w) = .next t

/-- 30_encoding.md R99 (last paragraph) and 20_memory.md R74: the composite FRAME(tx) is CSN_FALL, one BYTE per element and
CSN_RISE, whatever the bytes; a fault in it is the fault of one of these micro-steps, after which none follows. -/
def Obligations.FrameIsItsMicroSteps : Prop :=
  ∀ (s t : State) (tx : List Byte) (rest : List Stimulus), s.fault = none → s.fs = .idle → s.stimuli = .frame tx :: rest →
    step s = .next t →
    ∃ (k : Nat) (u : State), k ≤ tx.length + 2 ∧
      Host.Core.run Sys2Proof.core k ({ s with stimuli := microSteps tx ++ rest } : State) = .next u ∧
      { u with stimuli := rest } = t ∧ (t.fault = none → k = tx.length + 2 ∧ u = t)

/-! ### Faults and steps that are not enabled -/

/-- R97: an illegal command byte: the Status byte goes out, then IllegalOpcode is raised, and nothing else changes. -/
def Obligations.IllegalOpcodeFaults : Prop :=
  ∀ (s : State) (b : Byte) (rest : List Stimulus), 0x40 ≤ b.toNat → b ≠ 0x61#8 → b ≠ 0xA0#8 → b ≠ 0xE1#8 → b ≠ 0xE2#8 →
    b ≠ s.cfg.nopOpcode →
    (CommandByteNext s b rest →
      step s = .next { s with stimuli := rest, rx := s.rx ++ [s.statusByte], fault := some (.illegalOpcode b) }) ∧
    (∀ ds, FrameNext s b ds rest →
      step s = .next { s with stimuli := rest, fs := .cmd, fidx := 0, cmd := none, dbuf := [], rdl := none,
                              rx := [s.statusByte], fault := some (.illegalOpcode b) })

/-- R98: a format-A byte with an uncatalogued address, read or write, whatever the data phase. -/
def Obligations.ReservedRegisterFaults : Prop :=
  ∀ (s : State) (b : Byte) (rest : List Stimulus), b.toNat < 0x40 → catalogued (b.extractLsb' 0 5) = false →
    (CommandByteNext s b rest →
      step s = .next { s with stimuli := rest, rx := s.rx ++ [s.statusByte],
                              fault := some (.reservedRegister (b.extractLsb' 0 5)) }) ∧
    (∀ ds, FrameNext s b ds rest →
      step s = .next { s with stimuli := rest, fs := .cmd, fidx := 0, cmd := none, dbuf := [], rdl := none,
                              rx := [s.statusByte], fault := some (.reservedRegister (b.extractLsb' 0 5)) })

/-- R66: a data byte beyond the target's width raises LengthMismatch, for a register, a payload and the commands without a
data phase; nothing else changes. -/
def Obligations.OverlongDataFaults : Prop :=
  ∀ (s : State) (b : Byte) (rest : List Stimulus), DataByteNext s b rest →
    (∀ a, regWidth s.cfg a ≤ s.fidx - 1 →
      exec (.readRegister a) s = .next { s with stimuli := rest, fault := some (.lengthMismatch (.readRegister a) (s.fidx - 1)) } ∧
      exec (.writeRegister a) s = .next { s with stimuli := rest, fault := some (.lengthMismatch (.writeRegister a) (s.fidx - 1)) }) ∧
    (32 ≤ s.fidx - 1 →
      exec .readPayload s = .next { s with stimuli := rest, fault := some (.lengthMismatch .readPayload (s.fidx - 1)) } ∧
      exec .writePayload s = .next { s with stimuli := rest, fault := some (.lengthMismatch .writePayload (s.fidx - 1)) }) ∧
    exec .flushTx s = .next { s with stimuli := rest, fault := some (.lengthMismatch .flushTx (s.fidx - 1)) } ∧
    exec .flushRx s = .next { s with stimuli := rest, fault := some (.lengthMismatch .flushRx (s.fidx - 1)) } ∧
    exec .nop s = .next { s with stimuli := rest, fault := some (.lengthMismatch .nop (s.fidx - 1)) }

/-- R124: a commit to FIFO_STATUS with data raises ReadOnlyRegister(0x17) and changes nothing else; without data it changes
nothing and does not fault. -/
def Obligations.WriteFifoStatusFaults : Prop :=
  ∀ (s : State) (rest : List Stimulus), RiseNext s rest →
    (1 ≤ s.dbuf.length →
      exec (.writeRegister 0x17#5) s = .next { s with stimuli := rest, fault := some (.readOnlyRegister 0x17#5) }) ∧
    (s.dbuf = [] → exec (.writeRegister 0x17#5) s = .next (s.closed rest).arm)

/-- 60_exceptions.md, fault mechanism: after a fault no step of any agent gives a next state. -/
def Obligations.FaultIsFinal : Prop :=
  ∀ (s : State) (r : Fault), s.fault = some r → step s = .fault r ∧ ∀ i, exec i s = .fault r

/-- R281: a micro-step raises a fault exactly where the table says, with the reason and the value it records. -/
def Obligations.FaultTableIsComplete : Prop :=
  ∀ (s t : State), (∀ tx rest, s.stimuli ≠ .frame tx :: rest) → step s = .next t → ∀ r, t.fault = some r ↔ Raises s r

/-- 60_exceptions.md, fault mechanism: a micro-step that raises a fault makes no other change to the state, but that a
command byte has had its Status byte answered. -/
def Obligations.FaultingStepChangesNothingElse : Prop :=
  ∀ (s t : State) (r : Fault), (∀ tx rest, s.stimuli ≠ .frame tx :: rest) → step s = .next t → t.fault = some r →
    (∃ b rest, CommandByteNext s b rest ∧
      t = { s with stimuli := rest, fault := some r, rx := s.rx ++ [s.statusByte] }) ∨
    ((∀ b rest, ¬ CommandByteNext s b rest) ∧ t = { s with stimuli := s.stimuli.tail, fault := some r })

/-- R77: CSN_FALL has no step inside a frame, BYTE and CSN_RISE have none outside one. -/
def Obligations.UnframedMovesHaveNoStep : Prop :=
  ∀ (s : State) (b : Byte) (tx : List Byte) (rest : List Stimulus), s.fault = none →
    (s.fs ≠ .idle → s.stimuli = .csnFall :: rest → step s = .refused .frameAlreadyOpen) ∧
    (s.fs ≠ .idle → s.stimuli = .frame tx :: rest → step s = .refused .frameAlreadyOpen) ∧
    (s.fs = .idle → s.stimuli = .byte b :: rest → step s = .refused .noFrameOpen) ∧
    (s.fs = .idle → s.stimuli = .csnRise :: rest → step s = .refused .noFrameOpen)

/-! ### Responses -/

/-- 20_memory.md, section 6 (derived there: "Time of the Status sample"): the first response byte is the Status byte of the state in which byte 0 starts, for every command byte, legal or
not, byte by byte and in a whole frame. -/
def Obligations.FirstResponseIsStatus : Prop :=
  ∀ (s : State) (b : Byte) (rest : List Stimulus),
    (CommandByteNext s b rest → ∃ t, step s = .next t ∧ t.rx = s.rx ++ [s.statusByte]) ∧
    (∀ ds, FrameNext s b ds rest → ∃ t, step s = .next t ∧ t.rx.head? = some s.statusByte)

/-- 20_memory.md, section 6 (derived there: "Full duplex, equal length"): a response byte does not depend on the byte it is exchanged for, and every BYTE step that raises no fault gives
exactly one response byte. -/
def Obligations.ResponseIgnoresItsOwnByte : Prop :=
  ∀ (s t t' : State) (b b' : Byte) (rest : List Stimulus),
    step { s with stimuli := .byte b :: rest } = .next t → step { s with stimuli := .byte b' :: rest } = .next t' →
    t.rx = t'.rx ∧ (t.fault = none → t.rx.length = s.rx.length + 1)

/-- 10_state.md, section 2: the bits of the Status byte (bit 7 by the spec's own decision D15, `tx_full()` derived there); its pipe field is the head entry's pipe number while the RX FIFO holds data. -/
def Obligations.StatusByteBits : Prop :=
  ∀ s : State,
    s.statusByte.getLsbD 7 = false ∧ s.statusByte.getLsbD 6 = s.rxDr ∧ s.statusByte.getLsbD 5 = s.txDs ∧
    s.statusByte.getLsbD 4 = s.maxRt ∧ s.statusByte.getLsbD 0 = decide (s.txq.length = s.cfg.fifoDepth) ∧
    (s.rxq = [] → s.statusByte.extractLsb' 1 3 = s.cfg.rxPNoEmpty) ∧
    (∀ e q, s.rxq = e :: q → s.statusByte.extractLsb' 1 3 = e.pipe)

/-- 10_state.md, FIFO_STATUS: bit 0 is 1 exactly when the RX FIFO is empty, bits 7:1 are the parameter's value for the two
occupancies; under REF they are the layout of the table. -/
def Obligations.FifoStatusByteBits : Prop :=
  ∀ s : State, Inv s →
    s.fifoStatusByte.getLsbD 0 = decide (s.rxq = []) ∧
    (∃ row v, s.cfg.fifoStatusHi[s.txq.length]? = some row ∧ row[s.rxq.length]? = some v ∧
      s.fifoStatusByte.extractLsb' 1 7 = v) ∧
    (s.cfg = Config.ref →
      s.fifoStatusByte.getLsbD 7 = false ∧ s.fifoStatusByte.getLsbD 6 = false ∧
      s.fifoStatusByte.getLsbD 5 = decide (s.txq.length = 3) ∧ s.fifoStatusByte.getLsbD 4 = decide (s.txq = []) ∧
      s.fifoStatusByte.getLsbD 3 = false ∧ s.fifoStatusByte.getLsbD 2 = false ∧
      s.fifoStatusByte.getLsbD 1 = decide (s.rxq.length = 3))

/-! ### READ_REGISTER -/

/-- 40_register_access.md, READ_REGISTER: a frame of at most `width(a)` data bytes returns the Status byte and the first
bytes of the register, and leaves the block as it was but for `arm()`. -/
def Obligations.ReadRegisterFrameReturnsContents : Prop :=
  ∀ (s : State) (a : RegAddr) (b : Byte) (ds : List Byte) (rest : List Stimulus),
    s.regs.widths s.cfg.aw → catalogued a = true → ds.length ≤ regWidth s.cfg a → FrameNext s b ds rest →
    exec (.readRegister a) s = .next (s.framed rest (s.statusByte :: (s.x a).take ds.length) s.drawCount).arm

/-- 40_register_access.md, READ_REGISTER, byte by byte: the response beside data byte `k` is `x[a][k]` in the state in which
it is exchanged; the closing edge commits nothing. -/
def Obligations.ReadRegisterByteByByte : Prop :=
  ∀ (s : State) (a : RegAddr) (rest : List Stimulus), s.regs.widths s.cfg.aw → catalogued a = true →
    (∀ b, DataByteNext s b rest → s.fidx - 1 < regWidth s.cfg a →
      ∃ v, (s.x a)[s.fidx - 1]? = some v ∧
        exec (.readRegister a) s =
          .next { s with stimuli := rest, rx := s.rx ++ [v], dbuf := s.dbuf ++ [b], fidx := s.fidx + 1 }) ∧
    (RiseNext s rest → exec (.readRegister a) s = .next (s.closed rest).arm)

/-- 40_register_access.md, WRITE_REGISTER section (derived there: "Reads of the two composed registers"): the reads of the two composed registers, as whole frames. -/
def Obligations.ComposedRegisterReads : Prop :=
  ∀ (s : State) (b d : Byte) (rest : List Stimulus), FrameNext s b [d] rest →
    exec (.readRegister 0x07#5) s = .next (s.framed rest [s.statusByte, s.statusByte] s.drawCount).arm ∧
    exec (.readRegister 0x17#5) s = .next (s.framed rest [s.statusByte, s.fifoStatusByte] s.drawCount).arm ∧
    (rxHasData (some s.fifoStatusByte) = true ↔ s.rxq ≠ [])

/-! ### WRITE_REGISTER -/

/-- R122: commit of a write to CONFIG. -/
def Obligations.WriteConfigCommit : Prop :=
  ∀ (s : State) (d : Byte) (ds : List Byte) (rest : List Stimulus), RiseNext s rest → s.dbuf = d :: ds →
    exec (.writeRegister 0x00#5) s =
      .next ({ s.closed rest with
        regs := { s.regs with config := d },
        mode := if d.getLsbD s.cfg.primRxBit = true then Mode.receive else Mode.transmit } : State).arm

/-- 40_register_access.md, commit of a write to STATUS (that a 1 clears and a 0 keeps is the spec's own decision D14): it clears the flags whose bit is 1, keeps the others, and ignores bits 7 and 3:0. -/
def Obligations.WriteStatusCommit : Prop :=
  ∀ (s : State) (d : Byte) (ds : List Byte) (rest : List Stimulus), RiseNext s rest → s.dbuf = d :: ds →
    exec (.writeRegister 0x07#5) s =
      .next ({ s.closed rest with
        rxDr := if d.getLsbD 6 = true then false else s.rxDr,
        txDs := if d.getLsbD 5 = true then false else s.txDs,
        maxRt := if d.getLsbD 4 = true then false else s.maxRt } : State).arm

/-- R125: commit of a write to an address register: data byte `k` becomes byte `k`, the bytes beyond keep their values. -/
def Obligations.WriteAddressCommit : Prop :=
  ∀ (s : State) (rest : List Stimulus), RiseNext s rest → s.regs.widths s.cfg.aw → 1 ≤ s.dbuf.length →
    s.dbuf.length ≤ s.cfg.aw →
    exec (.writeRegister 0x0A#5) s =
      .next ({ s.closed rest with
        regs := { s.regs with rxAddrP0 := s.dbuf ++ s.regs.rxAddrP0.drop s.dbuf.length } } : State).arm ∧
    exec (.writeRegister 0x10#5) s =
      .next ({ s.closed rest with
        regs := { s.regs with txAddr := s.dbuf ++ s.regs.txAddr.drop s.dbuf.length } } : State).arm

/-- R126: commit of a write to each of the nine plain registers. -/
def Obligations.WritePlainCommit : Prop :=
  ∀ (s : State) (d : Byte) (rest : List Stimulus), RiseNext s rest → s.dbuf = [d] →
    exec (.writeRegister 0x01#5) s = .next ({ s.closed rest with regs := { s.regs with enAa := d } } : State).arm ∧
    exec (.writeRegister 0x02#5) s = .next ({ s.closed rest with regs := { s.regs with enRxaddr := d } } : State).arm ∧
    exec (.writeRegister 0x03#5) s = .next ({ s.closed rest with regs := { s.regs with setupAw := d } } : State).arm ∧
    exec (.writeRegister 0x04#5) s = .next ({ s.closed rest with regs := { s.regs with setupRetr := d } } : State).arm ∧
    exec (.writeRegister 0x05#5) s = .next ({ s.closed rest with regs := { s.regs with rfCh := d } } : State).arm ∧
    exec (.writeRegister 0x06#5) s = .next ({ s.closed rest with regs := { s.regs with rfSetup := d } } : State).arm ∧
    exec (.writeRegister 0x11#5) s = .next ({ s.closed rest with regs := { s.regs with rxPwP0 := d } } : State).arm ∧
    exec (.writeRegister 0x1C#5) s = .next ({ s.closed rest with regs := { s.regs with dynpd := d } } : State).arm ∧
    exec (.writeRegister 0x1D#5) s = .next ({ s.closed rest with regs := { s.regs with feature := d } } : State).arm

/-- 40_register_access.md, WRITE_REGISTER: a frame of at most `width(a)` data bytes (FIFO_STATUS: none) completes, answers
the Status byte of before the write and one byte beside each data byte, and the register then reads back as the data
followed by its old bytes beyond them; without data it changes nothing but what `arm()` may set. -/
def Obligations.WriteRegisterFrameReadsBack : Prop :=
  ∀ (s : State) (a : RegAddr) (r : RegName) (b : Byte) (ds : List Byte) (rest : List Stimulus),
    s.regs.widths s.cfg.aw → regAt a = some r → ds.length ≤ regWidth s.cfg a → (r = .fifoStatus → ds = []) →
    FrameNext s b ds rest →
    ∃ t, exec (.writeRegister a) s = .next t ∧ t.fault = none ∧ t.fs = .idle ∧ t.stimuli = rest ∧
      t.rx.length = ds.length + 1 ∧ t.rx.head? = some s.statusByte ∧
      (ds = [] → t = (s.framed rest [s.statusByte] s.drawCount).arm) ∧
      (r ≠ .status → ds ≠ [] → t.x a = ds ++ (s.x a).drop ds.length)

/-! ### NOP, FLUSH_TX, FLUSH_RX -/

/-- 41_nop_status.md: NOP's encoding, its one-byte frame, and that it commits nothing. -/
def Obligations.NopReturnsStatusOnly : Prop :=
  ∀ (s : State) (b : Byte) (rest : List Stimulus),
    encode s.cfg .nop = s.cfg.nopOpcode ∧
    (FrameNext s b [] rest → exec .nop s = .next (s.framed rest [s.statusByte] s.drawCount).arm) ∧
    (RiseNext s rest → exec .nop s = .next (s.closed rest).arm)

/-- 42_fifo_commands.md, FLUSH_TX: the TX FIFO is emptied and `tx_armed` cleared, the flags and the RX FIFO are untouched,
the response is the Status byte of before the flush; on an empty TX FIFO with nothing armed it changes nothing. -/
def Obligations.FlushTxEmptiesTxFifo : Prop :=
  ∀ (s : State) (b : Byte) (rest : List Stimulus),
    encode s.cfg .flushTx = 0xE1#8 ∧
    (FrameNext s b [] rest →
      exec .flushTx s = .next { s.framed rest [s.statusByte] s.drawCount with txq := [], txArmed := false } ∧
      (s.txq = [] → s.txArmed = false → exec .flushTx s = .next (s.framed rest [s.statusByte] s.drawCount))) ∧
    (RiseNext s rest → exec .flushTx s = .next { s.closed rest with txq := [], txArmed := false })

/-- 42_fifo_commands.md, FLUSH_RX: the RX FIFO is emptied; the flags, the TX FIFO and a pending transmission are untouched;
afterwards the Status pipe field reads RX_P_NO_EMPTY and FIFO_STATUS bit 0 reads 1. -/
def Obligations.FlushRxEmptiesRxFifo : Prop :=
  ∀ (s : State) (b : Byte) (rest : List Stimulus),
    encode s.cfg .flushRx = 0xE2#8 ∧
    (FrameNext s b [] rest →
      ∃ t, exec .flushRx s = .next t ∧
        t = ({ s.framed rest [s.statusByte] s.drawCount with rxq := [] } : State).arm ∧
        t.statusByte.extractLsb' 1 3 = s.cfg.rxPNoEmpty ∧ t.fifoStatusByte.getLsbD 0 = true) ∧
    (RiseNext s rest → exec .flushRx s = .next ({ s.closed rest with rxq := [] } : State).arm)

/-! ### READ_PAYLOAD and WRITE_PAYLOAD -/

/-- 42_fifo_commands.md, READ_PAYLOAD, whole frames: the first `n` bytes of the RX head, which leaves the FIFO if
READ_PAYLOAD_POPS and `n ≥ 1`; from an empty FIFO `n` free bytes and no removal. -/
def Obligations.ReadPayloadFrame : Prop :=
  ∀ (s : State) (b : Byte) (ds : List Byte) (rest : List Stimulus), FrameNext s b ds rest → ds.length ≤ 32 →
    (∀ e q, s.rxq = e :: q → e.payload.length = 32 → 1 ≤ ds.length →
      exec .readPayload s =
        .next ({ s.framed rest (s.statusByte :: e.payload.take ds.length) s.drawCount with
          rxq := if s.cfg.readPayloadPops = true then q else e :: q } : State).arm) ∧
    (s.rxq = [] → ∃ free n, free.length = ds.length ∧
      exec .readPayload s = .next (s.framed rest (s.statusByte :: free) n).arm) ∧
    (ds = [] → exec .readPayload s = .next (s.framed rest [s.statusByte] s.drawCount).arm)

/-- 42_fifo_commands.md, READ_PAYLOAD, byte by byte: byte 0 latches the head of the RX FIFO; the data responses come from
the latched entry, whatever has joined the FIFO since; the closing edge removes the head only if an entry was latched and a
data byte exchanged. -/
def Obligations.ReadPayloadByteByByte : Prop :=
  ∀ (s : State) (b : Byte) (rest : List Stimulus),
    (CommandByteNext s b rest →
      exec .readPayload s =
        .next { s with stimuli := rest, rx := s.rx ++ [s.statusByte], cmd := some .readPayload, fs := .data,
                       rdl := s.rxq.head?, fidx := 1 }) ∧
    (∀ e, DataByteNext s b rest → s.fidx - 1 < 32 → s.rdl = some e → e.payload.length = 32 →
      ∃ v, e.payload[s.fidx - 1]? = some v ∧
        exec .readPayload s =
          .next { s with stimuli := rest, rx := s.rx ++ [v], dbuf := s.dbuf ++ [b], fidx := s.fidx + 1 }) ∧
    (DataByteNext s b rest → s.fidx - 1 < 32 → s.rdl = none →
      ∃ free n, exec .readPayload s =
        .next { s with stimuli := rest, rx := s.rx ++ [free], dbuf := s.dbuf ++ [b], fidx := s.fidx + 1, drawCount := n }) ∧
    (RiseNext s rest →
      exec .readPayload s =
        .next ({ s.closed rest with
          rxq := if s.rdl ≠ none ∧ s.dbuf ≠ [] ∧ s.cfg.readPayloadPops = true then s.rxq.tail else s.rxq } : State).arm)

/-- 42_fifo_commands.md, WRITE_PAYLOAD: `n ≥ 1` bytes into a FIFO with room append one entry of 32 bytes whose first `n` are
the data and whose others are free, as a whole frame and at the closing edge of an open one; no data appends nothing; a
commit into a full FIFO raises TxFifoOverflow and changes nothing else. -/
def Obligations.WritePayloadAppendsOrOverflows : Prop :=
  ∀ (s : State) (b : Byte) (ds : List Byte) (rest : List Stimulus),
    (FrameNext s b ds rest → 1 ≤ ds.length → ds.length ≤ 32 → s.txq.length ≠ s.cfg.fifoDepth →
      ∃ echo free n, echo.length = ds.length ∧ free.length = 32 - ds.length ∧
        exec .writePayload s =
          .next ({ s.framed rest (s.statusByte :: echo) n with txq := s.txq ++ [ds ++ free] } : State).arm) ∧
    (FrameNext s b [] rest → exec .writePayload s = .next (s.framed rest [s.statusByte] s.drawCount).arm) ∧
    (RiseNext s rest → 1 ≤ s.dbuf.length → s.dbuf.length ≤ 32 → s.txq.length ≠ s.cfg.fifoDepth →
      ∃ free n, free.length = 32 - s.dbuf.length ∧
        exec .writePayload s = .next ({ s.closed rest with txq := s.txq ++ [s.dbuf ++ free], drawCount := n } : State).arm) ∧
    (RiseNext s rest → s.dbuf = [] → exec .writePayload s = .next (s.closed rest).arm) ∧
    (RiseNext s rest → 1 ≤ s.dbuf.length → s.txq.length = s.cfg.fifoDepth →
      exec .writePayload s = .next { s with stimuli := rest, fault := some .txFifoOverflow })

/-! ### Frames: what a command leaves unchanged -/

/-- READ_REGISTER and NOP, in every bus step: no register, flag, FIFO, mode, control line or parameter changes; `tx_armed`
only where `arm_cond()` holds; NOP latches no RX entry. -/
def Obligations.ReadsAndNopFrame : Prop :=
  ∀ (i : Instr) (s t : State), (i = .nop ∨ ∃ a, i = .readRegister a) → exec i s = .next t →
    t.cfg = s.cfg ∧ t.regs = s.regs ∧ t.rxDr = s.rxDr ∧ t.txDs = s.txDs ∧ t.maxRt = s.maxRt ∧ t.mode = s.mode ∧ t.ce = s.ce ∧
    t.txq = s.txq ∧ t.rxq = s.rxq ∧ (t.txArmed = s.txArmed ∨ (t.txArmed = true ∧ s.armCond = true)) ∧
    (t.rdl = s.rdl ∨ t.rdl = none)

/-- WRITE_REGISTER, in every bus step: every register but the one addressed reads as before (STATUS is addressed when a
flag changes), the mode changes only for CONFIG, the flags only for STATUS; FIFOs, control line and parameters stay. -/
def Obligations.WriteRegisterFrameRule : Prop :=
  ∀ (a : RegAddr) (s t : State), exec (.writeRegister a) s = .next t →
    t.cfg = s.cfg ∧ t.ce = s.ce ∧ t.txq = s.txq ∧ t.rxq = s.rxq ∧
    (∀ a', a' ≠ a → t.x a' = s.x a') ∧ (a ≠ 0x00#5 → t.mode = s.mode) ∧
    (a ≠ 0x07#5 → t.rxDr = s.rxDr ∧ t.txDs = s.txDs ∧ t.maxRt = s.maxRt) ∧
    (t.txArmed = s.txArmed ∨ (t.txArmed = true ∧ t.armCond = true)) ∧ (t.rdl = s.rdl ∨ t.rdl = none)

/-- The four FIFO commands, in every bus step: no stored register, flag, mode, control line or parameter changes; each
touches its own FIFO alone; FLUSH_TX alone clears `tx_armed`; READ_PAYLOAD alone latches an RX entry. -/
def Obligations.FifoCommandsFrame : Prop :=
  ∀ (i : Instr) (s t : State), (i = .flushTx ∨ i = .flushRx ∨ i = .readPayload ∨ i = .writePayload) → exec i s = .next t →
    t.cfg = s.cfg ∧ t.regs = s.regs ∧ t.rxDr = s.rxDr ∧ t.txDs = s.txDs ∧ t.maxRt = s.maxRt ∧ t.mode = s.mode ∧ t.ce = s.ce ∧
    (i ≠ .flushTx → i ≠ .writePayload → t.txq = s.txq) ∧ (i ≠ .flushRx → i ≠ .readPayload → t.rxq = s.rxq) ∧
    (i = .flushTx → t.txq = s.txq ∨ t.txq = []) ∧ (i = .writePayload → t.txq = s.txq ∨ ∃ e, t.txq = s.txq ++ [e]) ∧
    (i = .flushRx → t.rxq = s.rxq ∨ t.rxq = []) ∧ (i = .readPayload → t.rxq = s.rxq ∨ t.rxq = s.rxq.tail) ∧
    (t.txArmed = s.txArmed ∨ (t.txArmed = true ∧ t.armCond = true) ∨ (i = .flushTx ∧ t.txArmed = false)) ∧
    (i ≠ .readPayload → t.rdl = s.rdl ∨ t.rdl = none)

/-- R72: the steps before the closing edge change no register, flag, FIFO, mode, `tx_armed` or control line: whatever the
command, its effect comes at CSN_RISE. -/
def Obligations.NothingCommitsBeforeRise : Prop :=
  ∀ (s t : State), (s.stimuli.head? = some .csnFall ∨ ∃ b, s.stimuli.head? = some (.byte b)) → step s = .next t →
    t.regs = s.regs ∧ t.rxDr = s.rxDr ∧ t.txDs = s.txDs ∧ t.maxRt = s.maxRt ∧ t.mode = s.mode ∧ t.ce = s.ce ∧
    t.txArmed = s.txArmed ∧ t.txq = s.txq ∧ t.rxq = s.rxq ∧ t.statusByte = s.statusByte ∧
    t.fifoStatusByte = s.fifoStatusByte ∧ t.x = s.x

/-- R102: CSN_FALL followed at once by CSN_RISE changes nothing. -/
def Obligations.EmptyFrameChangesNothing : Prop :=
  ∀ (s : State) (rest : List Stimulus), Inv s → s.fault = none → s.fs = .idle → s.stimuli = .csnFall :: .csnRise :: rest →
    Host.Core.run Sys2Proof.core 2 s = .next ({ s with stimuli := rest, rx := [] } : State)

/-! ### The control line and the radio-link events -/

/-- R200: CE(level) is always enabled, sets the level and arms; the level the line already has changes nothing. -/
def Obligations.ControlLineStep : Prop :=
  ∀ (s : State) (level : Level) (rest : List Stimulus), s.fault = none → s.stimuli = .ce level :: rest →
    step s = .next ({ s with stimuli := rest, ce := level } : State).arm ∧
    (Inv s → s.ce = level → step s = .next { s with stimuli := rest })

/-- 43_mode_sequencer.md, section 3: `arm()` sets `tx_armed` exactly under `arm_cond()`, never clears it, and changes nothing else. -/
def Obligations.ArmingRule : Prop :=
  ∀ s : State,
    (s.mode = .transmit → s.ce = .high → s.regs.config.getLsbD s.cfg.pwrUpBit = true → s.txq ≠ [] →
      s.arm = { s with txArmed := true }) ∧
    (¬ (s.mode = .transmit ∧ s.ce = .high ∧ s.regs.config.getLsbD s.cfg.pwrUpBit = true ∧ s.txq ≠ []) → s.arm = s)

/-- 43_mode_sequencer.md, section 4 (what they do to the TX FIFO is the spec's own decision D28): the two outcome events of a transmission, each enabled exactly while `tx_armed = 1`. -/
def Obligations.TransmissionOutcomeEvents : Prop :=
  ∀ (s : State) (rest : List Stimulus), s.fault = none →
    (s.stimuli = .evTxDs :: rest → s.txArmed = true →
      step s = .next ({ s with stimuli := rest, txq := s.txq.tail, txDs := true, txArmed := false } : State).arm) ∧
    (s.stimuli = .evMaxRt :: rest → s.txArmed = true →
      step s = .next ({ s with stimuli := rest, maxRt := true, txArmed := false } : State).arm) ∧
    (s.stimuli = .evTxDs :: rest ∨ s.stimuli = .evMaxRt :: rest → s.txArmed = false → step s = .refused .eventNotEnabled)

/-- R209: EV_RX(p). -/
def Obligations.PacketReceivedEvent : Prop :=
  ∀ (s : State) (p : List Byte) (rest : List Stimulus), s.fault = none → s.stimuli = .evRx p :: rest → p.length = 32 →
    (s.mode = .receive ∧ s.ce = .high ∧ s.pwrUp = true ∧ s.rxq.length < s.cfg.fifoDepth →
      step s = .next { s with stimuli := rest, rxq := s.rxq ++ [⟨0#3, p⟩], rxDr := true }) ∧
    (¬ (s.mode = .receive ∧ s.ce = .high ∧ s.pwrUp = true ∧ s.rxq.length < s.cfg.fifoDepth) →
      step s = .refused .eventNotEnabled)

/-- R211: no event changes the mode, the control line, a stored register or the frame sequencer, and none clears a flag; the
two outcome events stay enabled while `tx_armed = 1`, whatever the mode, the control line and PWR_UP. -/
def Obligations.EventsFrame : Prop :=
  ∀ (s : State) (e : Stimulus) (rest : List Stimulus), s.fault = none → s.stimuli = e :: rest →
    (e = .evTxDs ∨ e = .evMaxRt ∨ ∃ p, e = .evRx p) →
    (∀ t, step s = .next t →
      t.mode = s.mode ∧ t.ce = s.ce ∧ t.regs = s.regs ∧ t.fs = s.fs ∧ t.fidx = s.fidx ∧ t.cmd = s.cmd ∧ t.dbuf = s.dbuf ∧
      t.rdl = s.rdl ∧ (s.rxDr = true → t.rxDr = true) ∧ (s.txDs = true → t.txDs = true) ∧
      (s.maxRt = true → t.maxRt = true)) ∧
    (s.txArmed = true → e = .evTxDs ∨ e = .evMaxRt → ∃ t, step s = .next t)

/-- 43_mode_sequencer.md, Power: PWR_UP = 0 disables listening and arming; a pending transmission still reports. -/
def Obligations.PoweredDownIsDeaf : Prop :=
  ∀ (s : State) (rest : List Stimulus), s.fault = none → s.pwrUp = false →
    s.listening = false ∧ s.armCond = false ∧ s.arm = s ∧
    (∀ p, p.length = 32 → s.stimuli = .evRx p :: rest → step s = .refused .eventNotEnabled) ∧
    (s.stimuli = .evTxDs :: rest → s.txArmed = true →
      step s = .next { s with stimuli := rest, txq := s.txq.tail, txDs := true, txArmed := false })

/-! ### Rules of the whole machine -/

/-- R201: the mode changes in no step but a committed CONFIG write with data, and after one it is the mode that PRIM_RX of
the byte written selects, at the closing edge and in a whole frame. -/
def Obligations.ModeFollowsConfigWritesOnly : Prop :=
  ∀ (s t : State), step s = .next t →
    (t.mode ≠ s.mode → CommitsWrite s .config) ∧
    (∀ d ds rest,
      (s.stimuli = .csnRise :: rest ∧ s.cmd = some (.writeRegister 0x00#5) ∧ s.dbuf = d :: ds) ∨
        (s.stimuli = .frame (0x20#8 :: d :: ds) :: rest ∧ t.fault = none) →
      t.regs.config = d ∧ t.mode = if d.getLsbD s.cfg.primRxBit = true then Mode.receive else Mode.transmit)

/-- 10_state.md, section 2: each event flag is set in no step but its own event and cleared in no step but a committed STATUS write. -/
def Obligations.FlagsSetByEventsClearedByStatusWrites : Prop :=
  ∀ (s t : State), step s = .next t →
    (s.rxDr = false → t.rxDr = true → ∃ p, s.stimuli.head? = some (.evRx p)) ∧
    (s.txDs = false → t.txDs = true → s.stimuli.head? = some .evTxDs) ∧
    (s.maxRt = false → t.maxRt = true → s.stimuli.head? = some .evMaxRt) ∧
    ((s.rxDr = true ∧ t.rxDr = false) ∨ (s.txDs = true ∧ t.txDs = false) ∨ (s.maxRt = true ∧ t.maxRt = false) →
      CommitsWrite s .status)

/-- 10_state.md, `tx_armed`: it is set in no step that does not end under `arm_cond()`, and cleared in no step but the two
outcome events and a FLUSH_TX. -/
def Obligations.ArmedUntilOutcomeOrFlush : Prop :=
  ∀ (s t : State), step s = .next t →
    (s.txArmed = false → t.txArmed = true → t.armCond = true) ∧
    (s.txArmed = true → t.txArmed = false →
      s.stimuli.head? = some .evTxDs ∨ s.stimuli.head? = some .evMaxRt ∨
      (∃ rest, s.stimuli = .csnRise :: rest ∧ s.cmd = some .flushTx) ∨
      (∃ b ds rest, s.stimuli = .frame (b :: ds) :: rest ∧ decode s.cfg b = .command .flushTx))

/-- 20_memory.md, register space: a stored register changes in no step but a committed write of that register; the
parameters change in none, so that no write changes how a later byte is decoded. -/
def Obligations.RegistersChangeOnlyByTheirWrites : Prop :=
  ∀ (s t : State), step s = .next t →
    t.cfg = s.cfg ∧ (∀ b, decode t.cfg b = decode s.cfg b) ∧
    ∀ r : RegName, r ≠ .status → r ≠ .fifoStatus → t.readReg r ≠ s.readReg r → CommitsWrite s r

/-- 10_state.md, plain registers: their values affect nothing but what a read of them returns. Two states that differ in
them alone have the same outcome of a step but for the same difference, the response bytes too, unless the step exchanges a
data byte of a read of one of them; and every step, such a read too, has the same outcome but for the response bytes. -/
def Obligations.PlainRegistersAffectNothing : Prop :=
  (∀ s s' : State, s.blankPlain = s'.blankPlain → ¬ ReadsPlainNext s →
    mapNext State.blankPlain (step s) = mapNext State.blankPlain (step s')) ∧
  (∀ s s' : State, s.blankPlain.blankRx = s'.blankPlain.blankRx →
    mapNext (fun t => t.blankPlain.blankRx) (step s) = mapNext (fun t => t.blankPlain.blankRx) (step s'))

/-- 10_state.md, sections 7 and 8: the invariant holds after power-on, for all parameters, register contents and control-line levels, and of
`State.reset` (whose values are the model's own choice, logs 2, 3, 4). -/
def Obligations.InvariantAtReset : Prop :=
  Inv State.reset ∧
  ∀ (cfg : Config) (image : RegFile) (ce : Level), cfg.wf → image.widths cfg.aw → Inv (State.powerOn cfg image ce)

/-- 10_state.md, invariants: every step keeps them, from every state that has them. -/
def Obligations.StepKeepsInvariant : Prop :=
  ∀ s t : State, Inv s → step s = .next t → Inv t

/-- 10_state.md, section 7 (derived there): the invariants hold in every state that any steps of the agents reach from a power-on. -/
def Obligations.ReachableStatesKeepInvariant : Prop :=
  ∀ (cfg : Config) (image : RegFile) (ce : Level) (xs : List Stimulus) (n : Nat) (t : State), cfg.wf → image.widths cfg.aw →
    Host.Core.run Sys2Proof.core n ({ State.powerOn cfg image ce with stimuli := xs } : State) = .next t → Inv t

/-- R39: `fidx` is at most 33; each BYTE step that raises no fault adds exactly 1; a byte at `fidx = 33` always faults with
LengthMismatch; it is 0 when a frame opens and when it closes. -/
def Obligations.FrameIndexCounts : Prop :=
  ∀ (s t : State) (rest : List Stimulus), Inv s → step s = .next t →
    s.fidx ≤ 33 ∧
    (∀ b, s.stimuli = .byte b :: rest → t.fault = none → t.fidx = s.fidx + 1) ∧
    (∀ b, s.stimuli = .byte b :: rest → s.fidx = 33 → ∃ i, s.cmd = some i ∧ t.fault = some (.lengthMismatch i 32)) ∧
    (s.stimuli = .csnFall :: rest → t.fidx = 0) ∧ (s.stimuli = .csnRise :: rest → t.fault = none → t.fidx = 0)

/-! ### Reset, mode changes, boot -/

/-- 10_state.md, section 8 (the values are the spec's own choice, D24 and D33): the state after power-on, for all parameters, RESET_IMAGE and CE_INIT, and the two composed registers' values. -/
def Obligations.PowerOnState : Prop :=
  ∀ (cfg : Config) (image : RegFile) (ce : Level) (s : State), cfg.wf → s = State.powerOn cfg image ce →
    s.regs = image ∧ s.rxDr = false ∧ s.txDs = false ∧ s.maxRt = false ∧
    (s.mode = .receive ↔ image.config.getLsbD cfg.primRxBit = true) ∧ s.ce = ce ∧ s.txArmed = false ∧ s.txq = [] ∧
    s.rxq = [] ∧ s.fs = .idle ∧ s.fidx = 0 ∧ s.cmd = none ∧ s.dbuf = [] ∧ s.rdl = none ∧ s.fault = none ∧
    s.statusByte = 0b0000#4 ++ cfg.rxPNoEmpty ++ 0#1 ∧
    (∃ row v, cfg.fifoStatusHi[0]? = some row ∧ row[0]? = some v ∧ s.fifoStatusByte = v ++ 1#1) ∧
    (cfg = Config.ref → s.statusByte = 0x0E#8 ∧ s.fifoStatusByte = 0x11#8)

/-- 43_mode_sequencer.md, section 2 (derived there): the host's Receive to Transmit sequence. -/
def Obligations.ReceiveToTransmit : Prop :=
  ∀ (s : State) (c : Byte) (rest : List Stimulus), Inv s → s.fault = none → s.fs = .idle →
    c.getLsbD s.cfg.primRxBit = false → c.getLsbD s.cfg.pwrUpBit = true →
    s.stimuli = toTransmitSeq .receive c ++ rest →
    ∃ t : State, Host.Core.run Sys2Proof.core 3 s = .next t ∧ t.fault = none ∧ t.stimuli = rest ∧ t.fs = .idle ∧
      t.ce = .low ∧ t.mode = .transmit ∧ t.regs = { s.regs with config := c } ∧ t.listening = false ∧ t.armCond = false ∧
      t.txArmed = s.txArmed ∧ t.txq = s.txq ∧ t.rxq = s.rxq ∧ t.rxDr = s.rxDr ∧ t.txDs = s.txDs ∧ t.maxRt = s.maxRt

/-- 43_mode_sequencer.md, section 2 (derived there): the host's Transmit to Receive sequence. -/
def Obligations.TransmitToReceive : Prop :=
  ∀ (s : State) (c : Byte) (rest : List Stimulus), Inv s → s.fault = none → s.fs = .idle →
    c.getLsbD s.cfg.primRxBit = true → s.stimuli = toReceiveSeq .transmit c ++ rest →
    ∃ t : State, Host.Core.run Sys2Proof.core 3 s = .next t ∧ t.fault = none ∧ t.stimuli = rest ∧ t.fs = .idle ∧
      t.ce = .high ∧ t.mode = .receive ∧ t.regs = { s.regs with config := c } ∧
      (c.getLsbD s.cfg.pwrUpBit = true → t.listening = true ∧
        (t.rxq.length < t.cfg.fifoDepth → ∀ p, p.length = 32 →
          ∃ u, step { t with stimuli := .evRx p :: rest } = .next u)) ∧
      t.txArmed = s.txArmed ∧ t.txq = s.txq ∧ t.rxq = s.rxq ∧ t.rxDr = s.rxDr ∧ t.txDs = s.txDs ∧ t.maxRt = s.maxRt

/-- 70_reset_and_hazards.md, section 2 (derived there): the boot sequence leaves the block in the stated state, whatever the state between frames it started in. -/
def Obligations.BootState : Prop :=
  ∀ (s : State) (v : BootBytes) (rest : List Stimulus), Inv s → s.fault = none → s.fs = .idle →
    v.wf s.cfg → s.stimuli = initializeSeq v ++ rest →
    ∃ t : State, Host.Core.run Sys2Proof.core 14 s = .next t ∧ t.fault = none ∧ t.stimuli = rest ∧
      t.regs = { s.regs with config := v.config, setupAw := v.setupAw, setupRetr := v.setupRetr, rxAddrP0 := v.rxAddrP0,
                             txAddr := v.txAddr, rfCh := v.rfCh, rfSetup := v.rfSetup, dynpd := v.dynpd,
                             feature := v.feature, enAa := v.enAa } ∧
      t.mode = .receive ∧ t.ce = .high ∧ t.listening = true ∧ t.rxDr = false ∧ t.txDs = false ∧ t.maxRt = false ∧
      t.rxq = [] ∧ t.txq = s.txq ∧ t.txArmed = s.txArmed ∧ t.fs = .idle

/-- 44_host_sequences.md, recorded mode (derived there): if every CONFIG transaction is reported truly, the host's copy of the
mode is the block's mode after every operation of the driver that began so, whatever else failed, wherever steps of the radio
link stand among the host's micro-steps, inside a frame too; and after a boot that succeeds, whatever the mode before it. The operations are the model's
rendering of the driver (logs 16, 21). -/
def Obligations.RecordedModeIsTheBlocksMode : Prop :=
  ∀ (s t : State) (host run rest : List Stimulus) (ch : DriverChoices) (cTx cRx : Byte), s.fault = none → s.fs = .idle →
    s.stimuli = run ++ rest → Interleaves host run → Host.Core.run Sys2Proof.core run.length s = .next t → t.fault = none →
    isTransmitConfig s.cfg cTx → isReceiveConfig s.cfg cRx →
    (∀ reply : Transport 2, reply.reportsTruly = true → host = (toTransmit s.mode cTx reply).steps →
      t.mode = (toTransmit s.mode cTx reply).recorded ∧ t.fs = .idle) ∧
    (∀ reply : Transport 2, reply.reportsTruly = true → host = (toReceive s.mode cRx reply).steps →
      t.mode = (toReceive s.mode cRx reply).recorded ∧ t.fs = .idle) ∧
    (∀ (payload : List Byte) (r : TransmitReplies), r.toTx.reportsTruly = true → r.toRx.reportsTruly = true →
      host = (transmit s.cfg ch s.mode payload cTx cRx r).steps →
      t.mode = (transmit s.cfg ch s.mode payload cTx cRx r).recorded ∧ t.fs = .idle) ∧
    (∀ (dummies : Vector Byte payloadWidth) (r : ReceiveReplies), r.toRx.reportsTruly = true →
      host = (receive ch s.mode cRx dummies r).steps →
      t.mode = (receive ch s.mode cRx dummies r).recorded ∧ t.fs = .idle) ∧
    (∀ (v : BootBytes) (replies : BootReplies v), v.wf s.cfg → host = (boot ch v replies).steps →
      (boot ch v replies).error = none → (boot ch v replies).recorded = some t.mode ∧ t.fs = .idle)
end

