-- ==== Sys2Proof/Laws/State.lean ====
section
/-! SUPPORT. One lemma per field per named update of the state, true by rfl, so that no later proof unfolds an update; and
the same for `arm`, which changes `txArmed` alone. -/

namespace Sys2Proof.Machine


@[simp] theorem State.taking_cfg (s : State) (rest : List Stimulus) : (s.taking rest).cfg = s.cfg := rfl
@[simp] theorem State.taking_regs (s : State) (rest : List Stimulus) : (s.taking rest).regs = s.regs := rfl
@[simp] theorem State.taking_rxDr (s : State) (rest : List Stimulus) : (s.taking rest).rxDr = s.rxDr := rfl
@[simp] theorem State.taking_txDs (s : State) (rest : List Stimulus) : (s.taking rest).txDs = s.txDs := rfl
@[simp] theorem State.taking_maxRt (s : State) (rest : List Stimulus) : (s.taking rest).maxRt = s.maxRt := rfl
@[simp] theorem State.taking_mode (s : State) (rest : List Stimulus) : (s.taking rest).mode = s.mode := rfl
@[simp] theorem State.taking_ce (s : State) (rest : List Stimulus) : (s.taking rest).ce = s.ce := rfl
@[simp] theorem State.taking_txArmed (s : State) (rest : List Stimulus) : (s.taking rest).txArmed = s.txArmed := rfl
@[simp] theorem State.taking_txq (s : State) (rest : List Stimulus) : (s.taking rest).txq = s.txq := rfl
@[simp] theorem State.taking_rxq (s : State) (rest : List Stimulus) : (s.taking rest).rxq = s.rxq := rfl
@[simp] theorem State.taking_fs (s : State) (rest : List Stimulus) : (s.taking rest).fs = s.fs := rfl
@[simp] theorem State.taking_fidx (s : State) (rest : List Stimulus) : (s.taking rest).fidx = s.fidx := rfl
@[simp] theorem State.taking_cmd (s : State) (rest : List Stimulus) : (s.taking rest).cmd = s.cmd := rfl
@[simp] theorem State.taking_dbuf (s : State) (rest : List Stimulus) : (s.taking rest).dbuf = s.dbuf := rfl
@[simp] theorem State.taking_rdl (s : State) (rest : List Stimulus) : (s.taking rest).rdl = s.rdl := rfl
@[simp] theorem State.taking_fault (s : State) (rest : List Stimulus) : (s.taking rest).fault = s.fault := rfl
@[simp] theorem State.taking_stimuli (s : State) (rest : List Stimulus) : (s.taking rest).stimuli = rest := rfl
@[simp] theorem State.taking_rx (s : State) (rest : List Stimulus) : (s.taking rest).rx = s.rx := rfl
@[simp] theorem State.taking_drawCount (s : State) (rest : List Stimulus) : (s.taking rest).drawCount = s.drawCount := rfl

@[simp] theorem State.raise_cfg (s : State) (r : Fault) : (s.raise r).cfg = s.cfg := rfl
@[simp] theorem State.raise_regs (s : State) (r : Fault) : (s.raise r).regs = s.regs := rfl
@[simp] theorem State.raise_rxDr (s : State) (r : Fault) : (s.raise r).rxDr = s.rxDr := rfl
@[simp] theorem State.raise_txDs (s : State) (r : Fault) : (s.raise r).txDs = s.txDs := rfl
@[simp] theorem State.raise_maxRt (s : State) (r : Fault) : (s.raise r).maxRt = s.maxRt := rfl
@[simp] theorem State.raise_mode (s : State) (r : Fault) : (s.raise r).mode = s.mode := rfl
@[simp] theorem State.raise_ce (s : State) (r : Fault) : (s.raise r).ce = s.ce := rfl
@[simp] theorem State.raise_txArmed (s : State) (r : Fault) : (s.raise r).txArmed = s.txArmed := rfl
@[simp] theorem State.raise_txq (s : State) (r : Fault) : (s.raise r).txq = s.txq := rfl
@[simp] theorem State.raise_rxq (s : State) (r : Fault) : (s.raise r).rxq = s.rxq := rfl
@[simp] theorem State.raise_fs (s : State) (r : Fault) : (s.raise r).fs = s.fs := rfl
@[simp] theorem State.raise_fidx (s : State) (r : Fault) : (s.raise r).fidx = s.fidx := rfl
@[simp] theorem State.raise_cmd (s : State) (r : Fault) : (s.raise r).cmd = s.cmd := rfl
@[simp] theorem State.raise_dbuf (s : State) (r : Fault) : (s.raise r).dbuf = s.dbuf := rfl
@[simp] theorem State.raise_rdl (s : State) (r : Fault) : (s.raise r).rdl = s.rdl := rfl
@[simp] theorem State.raise_fault (s : State) (r : Fault) : (s.raise r).fault = some r := rfl
@[simp] theorem State.raise_stimuli (s : State) (r : Fault) : (s.raise r).stimuli = s.stimuli := rfl
@[simp] theorem State.raise_rx (s : State) (r : Fault) : (s.raise r).rx = s.rx := rfl
@[simp] theorem State.raise_drawCount (s : State) (r : Fault) : (s.raise r).drawCount = s.drawCount := rfl

@[simp] theorem State.respond_cfg (s : State) (r : Byte) : (s.respond r).cfg = s.cfg := rfl
@[simp] theorem State.respond_regs (s : State) (r : Byte) : (s.respond r).regs = s.regs := rfl
@[simp] theorem State.respond_rxDr (s : State) (r : Byte) : (s.respond r).rxDr = s.rxDr := rfl
@[simp] theorem State.respond_txDs (s : State) (r : Byte) : (s.respond r).txDs = s.txDs := rfl
@[simp] theorem State.respond_maxRt (s : State) (r : Byte) : (s.respond r).maxRt = s.maxRt := rfl
@[simp] theorem State.respond_mode (s : State) (r : Byte) : (s.respond r).mode = s.mode := rfl
@[simp] theorem State.respond_ce (s : State) (r : Byte) : (s.respond r).ce = s.ce := rfl
@[simp] theorem State.respond_txArmed (s : State) (r : Byte) : (s.respond r).txArmed = s.txArmed := rfl
@[simp] theorem State.respond_txq (s : State) (r : Byte) : (s.respond r).txq = s.txq := rfl
@[simp] theorem State.respond_rxq (s : State) (r : Byte) : (s.respond r).rxq = s.rxq := rfl
@[simp] theorem State.respond_fs (s : State) (r : Byte) : (s.respond r).fs = s.fs := rfl
@[simp] theorem State.respond_fidx (s : State) (r : Byte) : (s.respond r).fidx = s.fidx := rfl
@[simp] theorem State.respond_cmd (s : State) (r : Byte) : (s.respond r).cmd = s.cmd := rfl
@[simp] theorem State.respond_dbuf (s : State) (r : Byte) : (s.respond r).dbuf = s.dbuf := rfl
@[simp] theorem State.respond_rdl (s : State) (r : Byte) : (s.respond r).rdl = s.rdl := rfl
@[simp] theorem State.respond_fault (s : State) (r : Byte) : (s.respond r).fault = s.fault := rfl
@[simp] theorem State.respond_stimuli (s : State) (r : Byte) : (s.respond r).stimuli = s.stimuli := rfl
@[simp] theorem State.respond_rx (s : State) (r : Byte) : (s.respond r).rx = s.rx ++ [r] := rfl
@[simp] theorem State.respond_drawCount (s : State) (r : Byte) : (s.respond r).drawCount = s.drawCount := rfl

@[simp] theorem State.txPush_cfg (s : State) (e : List Byte) : (s.txPush e).cfg = s.cfg := rfl
@[simp] theorem State.txPush_regs (s : State) (e : List Byte) : (s.txPush e).regs = s.regs := rfl
@[simp] theorem State.txPush_rxDr (s : State) (e : List Byte) : (s.txPush e).rxDr = s.rxDr := rfl
@[simp] theorem State.txPush_txDs (s : State) (e : List Byte) : (s.txPush e).txDs = s.txDs := rfl
@[simp] theorem State.txPush_maxRt (s : State) (e : List Byte) : (s.txPush e).maxRt = s.maxRt := rfl
@[simp] theorem State.txPush_mode (s : State) (e : List Byte) : (s.txPush e).mode = s.mode := rfl
@[simp] theorem State.txPush_ce (s : State) (e : List Byte) : (s.txPush e).ce = s.ce := rfl
@[simp] theorem State.txPush_txArmed (s : State) (e : List Byte) : (s.txPush e).txArmed = s.txArmed := rfl
@[simp] theorem State.txPush_txq (s : State) (e : List Byte) : (s.txPush e).txq = s.txq ++ [e] := rfl
@[simp] theorem State.txPush_rxq (s : State) (e : List Byte) : (s.txPush e).rxq = s.rxq := rfl
@[simp] theorem State.txPush_fs (s : State) (e : List Byte) : (s.txPush e).fs = s.fs := rfl
@[simp] theorem State.txPush_fidx (s : State) (e : List Byte) : (s.txPush e).fidx = s.fidx := rfl
@[simp] theorem State.txPush_cmd (s : State) (e : List Byte) : (s.txPush e).cmd = s.cmd := rfl
@[simp] theorem State.txPush_dbuf (s : State) (e : List Byte) : (s.txPush e).dbuf = s.dbuf := rfl
@[simp] theorem State.txPush_rdl (s : State) (e : List Byte) : (s.txPush e).rdl = s.rdl := rfl
@[simp] theorem State.txPush_fault (s : State) (e : List Byte) : (s.txPush e).fault = s.fault := rfl
@[simp] theorem State.txPush_stimuli (s : State) (e : List Byte) : (s.txPush e).stimuli = s.stimuli := rfl
@[simp] theorem State.txPush_rx (s : State) (e : List Byte) : (s.txPush e).rx = s.rx := rfl
@[simp] theorem State.txPush_drawCount (s : State) (e : List Byte) : (s.txPush e).drawCount = s.drawCount := rfl

@[simp] theorem State.txPop_cfg (s : State) : s.txPop.cfg = s.cfg := rfl
@[simp] theorem State.txPop_regs (s : State) : s.txPop.regs = s.regs := rfl
@[simp] theorem State.txPop_rxDr (s : State) : s.txPop.rxDr = s.rxDr := rfl
@[simp] theorem State.txPop_txDs (s : State) : s.txPop.txDs = s.txDs := rfl
@[simp] theorem State.txPop_maxRt (s : State) : s.txPop.maxRt = s.maxRt := rfl
@[simp] theorem State.txPop_mode (s : State) : s.txPop.mode = s.mode := rfl
@[simp] theorem State.txPop_ce (s : State) : s.txPop.ce = s.ce := rfl
@[simp] theorem State.txPop_txArmed (s : State) : s.txPop.txArmed = s.txArmed := rfl
@[simp] theorem State.txPop_txq (s : State) : s.txPop.txq = s.txq.tail := rfl
@[simp] theorem State.txPop_rxq (s : State) : s.txPop.rxq = s.rxq := rfl
@[simp] theorem State.txPop_fs (s : State) : s.txPop.fs = s.fs := rfl
@[simp] theorem State.txPop_fidx (s : State) : s.txPop.fidx = s.fidx := rfl
@[simp] theorem State.txPop_cmd (s : State) : s.txPop.cmd = s.cmd := rfl
@[simp] theorem State.txPop_dbuf (s : State) : s.txPop.dbuf = s.dbuf := rfl
@[simp] theorem State.txPop_rdl (s : State) : s.txPop.rdl = s.rdl := rfl
@[simp] theorem State.txPop_fault (s : State) : s.txPop.fault = s.fault := rfl
@[simp] theorem State.txPop_stimuli (s : State) : s.txPop.stimuli = s.stimuli := rfl
@[simp] theorem State.txPop_rx (s : State) : s.txPop.rx = s.rx := rfl
@[simp] theorem State.txPop_drawCount (s : State) : s.txPop.drawCount = s.drawCount := rfl

@[simp] theorem State.rxPush_cfg (s : State) (e : RxEntry) : (s.rxPush e).cfg = s.cfg := rfl
@[simp] theorem State.rxPush_regs (s : State) (e : RxEntry) : (s.rxPush e).regs = s.regs := rfl
@[simp] theorem State.rxPush_rxDr (s : State) (e : RxEntry) : (s.rxPush e).rxDr = s.rxDr := rfl
@[simp] theorem State.rxPush_txDs (s : State) (e : RxEntry) : (s.rxPush e).txDs = s.txDs := rfl
@[simp] theorem State.rxPush_maxRt (s : State) (e : RxEntry) : (s.rxPush e).maxRt = s.maxRt := rfl
@[simp] theorem State.rxPush_mode (s : State) (e : RxEntry) : (s.rxPush e).mode = s.mode := rfl
@[simp] theorem State.rxPush_ce (s : State) (e : RxEntry) : (s.rxPush e).ce = s.ce := rfl
@[simp] theorem State.rxPush_txArmed (s : State) (e : RxEntry) : (s.rxPush e).txArmed = s.txArmed := rfl
@[simp] theorem State.rxPush_txq (s : State) (e : RxEntry) : (s.rxPush e).txq = s.txq := rfl
@[simp] theorem State.rxPush_rxq (s : State) (e : RxEntry) : (s.rxPush e).rxq = s.rxq ++ [e] := rfl
@[simp] theorem State.rxPush_fs (s : State) (e : RxEntry) : (s.rxPush e).fs = s.fs := rfl
@[simp] theorem State.rxPush_fidx (s : State) (e : RxEntry) : (s.rxPush e).fidx = s.fidx := rfl
@[simp] theorem State.rxPush_cmd (s : State) (e : RxEntry) : (s.rxPush e).cmd = s.cmd := rfl
@[simp] theorem State.rxPush_dbuf (s : State) (e : RxEntry) : (s.rxPush e).dbuf = s.dbuf := rfl
@[simp] theorem State.rxPush_rdl (s : State) (e : RxEntry) : (s.rxPush e).rdl = s.rdl := rfl
@[simp] theorem State.rxPush_fault (s : State) (e : RxEntry) : (s.rxPush e).fault = s.fault := rfl
@[simp] theorem State.rxPush_stimuli (s : State) (e : RxEntry) : (s.rxPush e).stimuli = s.stimuli := rfl
@[simp] theorem State.rxPush_rx (s : State) (e : RxEntry) : (s.rxPush e).rx = s.rx := rfl
@[simp] theorem State.rxPush_drawCount (s : State) (e : RxEntry) : (s.rxPush e).drawCount = s.drawCount := rfl

@[simp] theorem State.rxPop_cfg (s : State) : s.rxPop.cfg = s.cfg := rfl
@[simp] theorem State.rxPop_regs (s : State) : s.rxPop.regs = s.regs := rfl
@[simp] theorem State.rxPop_rxDr (s : State) : s.rxPop.rxDr = s.rxDr := rfl
@[simp] theorem State.rxPop_txDs (s : State) : s.rxPop.txDs = s.txDs := rfl
@[simp] theorem State.rxPop_maxRt (s : State) : s.rxPop.maxRt = s.maxRt := rfl
@[simp] theorem State.rxPop_mode (s : State) : s.rxPop.mode = s.mode := rfl
@[simp] theorem State.rxPop_ce (s : State) : s.rxPop.ce = s.ce := rfl
@[simp] theorem State.rxPop_txArmed (s : State) : s.rxPop.txArmed = s.txArmed := rfl
@[simp] theorem State.rxPop_txq (s : State) : s.rxPop.txq = s.txq := rfl
@[simp] theorem State.rxPop_rxq (s : State) : s.rxPop.rxq = s.rxq.tail := rfl
@[simp] theorem State.rxPop_fs (s : State) : s.rxPop.fs = s.fs := rfl
@[simp] theorem State.rxPop_fidx (s : State) : s.rxPop.fidx = s.fidx := rfl
@[simp] theorem State.rxPop_cmd (s : State) : s.rxPop.cmd = s.cmd := rfl
@[simp] theorem State.rxPop_dbuf (s : State) : s.rxPop.dbuf = s.dbuf := rfl
@[simp] theorem State.rxPop_rdl (s : State) : s.rxPop.rdl = s.rdl := rfl
@[simp] theorem State.rxPop_fault (s : State) : s.rxPop.fault = s.fault := rfl
@[simp] theorem State.rxPop_stimuli (s : State) : s.rxPop.stimuli = s.stimuli := rfl
@[simp] theorem State.rxPop_rx (s : State) : s.rxPop.rx = s.rx := rfl
@[simp] theorem State.rxPop_drawCount (s : State) : s.rxPop.drawCount = s.drawCount := rfl

@[simp] theorem State.openFrame_cfg (s : State) : s.openFrame.cfg = s.cfg := rfl
@[simp] theorem State.openFrame_regs (s : State) : s.openFrame.regs = s.regs := rfl
@[simp] theorem State.openFrame_rxDr (s : State) : s.openFrame.rxDr = s.rxDr := rfl
@[simp] theorem State.openFrame_txDs (s : State) : s.openFrame.txDs = s.txDs := rfl
@[simp] theorem State.openFrame_maxRt (s : State) : s.openFrame.maxRt = s.maxRt := rfl
@[simp] theorem State.openFrame_mode (s : State) : s.openFrame.mode = s.mode := rfl
@[simp] theorem State.openFrame_ce (s : State) : s.openFrame.ce = s.ce := rfl
@[simp] theorem State.openFrame_txArmed (s : State) : s.openFrame.txArmed = s.txArmed := rfl
@[simp] theorem State.openFrame_txq (s : State) : s.openFrame.txq = s.txq := rfl
@[simp] theorem State.openFrame_rxq (s : State) : s.openFrame.rxq = s.rxq := rfl
@[simp] theorem State.openFrame_fs (s : State) : s.openFrame.fs = .cmd := rfl
@[simp] theorem State.openFrame_fidx (s : State) : s.openFrame.fidx = 0 := rfl
@[simp] theorem State.openFrame_cmd (s : State) : s.openFrame.cmd = none := rfl
@[simp] theorem State.openFrame_dbuf (s : State) : s.openFrame.dbuf = [] := rfl
@[simp] theorem State.openFrame_rdl (s : State) : s.openFrame.rdl = none := rfl
@[simp] theorem State.openFrame_fault (s : State) : s.openFrame.fault = s.fault := rfl
@[simp] theorem State.openFrame_stimuli (s : State) : s.openFrame.stimuli = s.stimuli := rfl
@[simp] theorem State.openFrame_rx (s : State) : s.openFrame.rx = [] := rfl
@[simp] theorem State.openFrame_drawCount (s : State) : s.openFrame.drawCount = s.drawCount := rfl

@[simp] theorem State.idleFrame_cfg (s : State) : s.idleFrame.cfg = s.cfg := rfl
@[simp] theorem State.idleFrame_regs (s : State) : s.idleFrame.regs = s.regs := rfl
@[simp] theorem State.idleFrame_rxDr (s : State) : s.idleFrame.rxDr = s.rxDr := rfl
@[simp] theorem State.idleFrame_txDs (s : State) : s.idleFrame.txDs = s.txDs := rfl
@[simp] theorem State.idleFrame_maxRt (s : State) : s.idleFrame.maxRt = s.maxRt := rfl
@[simp] theorem State.idleFrame_mode (s : State) : s.idleFrame.mode = s.mode := rfl
@[simp] theorem State.idleFrame_ce (s : State) : s.idleFrame.ce = s.ce := rfl
@[simp] theorem State.idleFrame_txArmed (s : State) : s.idleFrame.txArmed = s.txArmed := rfl
@[simp] theorem State.idleFrame_txq (s : State) : s.idleFrame.txq = s.txq := rfl
@[simp] theorem State.idleFrame_rxq (s : State) : s.idleFrame.rxq = s.rxq := rfl
@[simp] theorem State.idleFrame_fs (s : State) : s.idleFrame.fs = .idle := rfl
@[simp] theorem State.idleFrame_fidx (s : State) : s.idleFrame.fidx = 0 := rfl
@[simp] theorem State.idleFrame_cmd (s : State) : s.idleFrame.cmd = none := rfl
@[simp] theorem State.idleFrame_dbuf (s : State) : s.idleFrame.dbuf = [] := rfl
@[simp] theorem State.idleFrame_rdl (s : State) : s.idleFrame.rdl = none := rfl
@[simp] theorem State.idleFrame_fault (s : State) : s.idleFrame.fault = s.fault := rfl
@[simp] theorem State.idleFrame_stimuli (s : State) : s.idleFrame.stimuli = s.stimuli := rfl
@[simp] theorem State.idleFrame_rx (s : State) : s.idleFrame.rx = s.rx := rfl
@[simp] theorem State.idleFrame_drawCount (s : State) : s.idleFrame.drawCount = s.drawCount := rfl

@[simp] theorem State.latchCommand_cfg (s : State) (i : Instr) : (s.latchCommand i).cfg = s.cfg := rfl
@[simp] theorem State.latchCommand_regs (s : State) (i : Instr) : (s.latchCommand i).regs = s.regs := rfl
@[simp] theorem State.latchCommand_rxDr (s : State) (i : Instr) : (s.latchCommand i).rxDr = s.rxDr := rfl
@[simp] theorem State.latchCommand_txDs (s : State) (i : Instr) : (s.latchCommand i).txDs = s.txDs := rfl
@[simp] theorem State.latchCommand_maxRt (s : State) (i : Instr) : (s.latchCommand i).maxRt = s.maxRt := rfl
@[simp] theorem State.latchCommand_mode (s : State) (i : Instr) : (s.latchCommand i).mode = s.mode := rfl
@[simp] theorem State.latchCommand_ce (s : State) (i : Instr) : (s.latchCommand i).ce = s.ce := rfl
@[simp] theorem State.latchCommand_txArmed (s : State) (i : Instr) : (s.latchCommand i).txArmed = s.txArmed := rfl
@[simp] theorem State.latchCommand_txq (s : State) (i : Instr) : (s.latchCommand i).txq = s.txq := rfl
@[simp] theorem State.latchCommand_rxq (s : State) (i : Instr) : (s.latchCommand i).rxq = s.rxq := rfl
@[simp] theorem State.latchCommand_fs (s : State) (i : Instr) : (s.latchCommand i).fs = .data := rfl
@[simp] theorem State.latchCommand_fidx (s : State) (i : Instr) : (s.latchCommand i).fidx = s.fidx := rfl
@[simp] theorem State.latchCommand_cmd (s : State) (i : Instr) : (s.latchCommand i).cmd = some i := rfl
@[simp] theorem State.latchCommand_dbuf (s : State) (i : Instr) : (s.latchCommand i).dbuf = s.dbuf := rfl
@[simp] theorem State.latchCommand_rdl (s : State) (i : Instr) : (s.latchCommand i).rdl = s.rdl := rfl
@[simp] theorem State.latchCommand_fault (s : State) (i : Instr) : (s.latchCommand i).fault = s.fault := rfl
@[simp] theorem State.latchCommand_stimuli (s : State) (i : Instr) : (s.latchCommand i).stimuli = s.stimuli := rfl
@[simp] theorem State.latchCommand_rx (s : State) (i : Instr) : (s.latchCommand i).rx = s.rx := rfl
@[simp] theorem State.latchCommand_drawCount (s : State) (i : Instr) : (s.latchCommand i).drawCount = s.drawCount := rfl

@[simp] theorem State.advance_cfg (s : State) : s.advance.cfg = s.cfg := rfl
@[simp] theorem State.advance_regs (s : State) : s.advance.regs = s.regs := rfl
@[simp] theorem State.advance_rxDr (s : State) : s.advance.rxDr = s.rxDr := rfl
@[simp] theorem State.advance_txDs (s : State) : s.advance.txDs = s.txDs := rfl
@[simp] theorem State.advance_maxRt (s : State) : s.advance.maxRt = s.maxRt := rfl
@[simp] theorem State.advance_mode (s : State) : s.advance.mode = s.mode := rfl
@[simp] theorem State.advance_ce (s : State) : s.advance.ce = s.ce := rfl
@[simp] theorem State.advance_txArmed (s : State) : s.advance.txArmed = s.txArmed := rfl
@[simp] theorem State.advance_txq (s : State) : s.advance.txq = s.txq := rfl
@[simp] theorem State.advance_rxq (s : State) : s.advance.rxq = s.rxq := rfl
@[simp] theorem State.advance_fs (s : State) : s.advance.fs = s.fs := rfl
@[simp] theorem State.advance_fidx (s : State) : s.advance.fidx = s.fidx + 1 := rfl
@[simp] theorem State.advance_cmd (s : State) : s.advance.cmd = s.cmd := rfl
@[simp] theorem State.advance_dbuf (s : State) : s.advance.dbuf = s.dbuf := rfl
@[simp] theorem State.advance_rdl (s : State) : s.advance.rdl = s.rdl := rfl
@[simp] theorem State.advance_fault (s : State) : s.advance.fault = s.fault := rfl
@[simp] theorem State.advance_stimuli (s : State) : s.advance.stimuli = s.stimuli := rfl
@[simp] theorem State.advance_rx (s : State) : s.advance.rx = s.rx := rfl
@[simp] theorem State.advance_drawCount (s : State) : s.advance.drawCount = s.drawCount := rfl

@[simp] theorem State.keepData_cfg (s : State) (b : Byte) : (s.keepData b).cfg = s.cfg := rfl
@[simp] theorem State.keepData_regs (s : State) (b : Byte) : (s.keepData b).regs = s.regs := rfl
@[simp] theorem State.keepData_rxDr (s : State) (b : Byte) : (s.keepData b).rxDr = s.rxDr := rfl
@[simp] theorem State.keepData_txDs (s : State) (b : Byte) : (s.keepData b).txDs = s.txDs := rfl
@[simp] theorem State.keepData_maxRt (s : State) (b : Byte) : (s.keepData b).maxRt = s.maxRt := rfl
@[simp] theorem State.keepData_mode (s : State) (b : Byte) : (s.keepData b).mode = s.mode := rfl
@[simp] theorem State.keepData_ce (s : State) (b : Byte) : (s.keepData b).ce = s.ce := rfl
@[simp] theorem State.keepData_txArmed (s : State) (b : Byte) : (s.keepData b).txArmed = s.txArmed := rfl
@[simp] theorem State.keepData_txq (s : State) (b : Byte) : (s.keepData b).txq = s.txq := rfl
@[simp] theorem State.keepData_rxq (s : State) (b : Byte) : (s.keepData b).rxq = s.rxq := rfl
@[simp] theorem State.keepData_fs (s : State) (b : Byte) : (s.keepData b).fs = s.fs := rfl
@[simp] theorem State.keepData_fidx (s : State) (b : Byte) : (s.keepData b).fidx = s.fidx := rfl
@[simp] theorem State.keepData_cmd (s : State) (b : Byte) : (s.keepData b).cmd = s.cmd := rfl
@[simp] theorem State.keepData_dbuf (s : State) (b : Byte) : (s.keepData b).dbuf = s.dbuf ++ [b] := rfl
@[simp] theorem State.keepData_rdl (s : State) (b : Byte) : (s.keepData b).rdl = s.rdl := rfl
@[simp] theorem State.keepData_fault (s : State) (b : Byte) : (s.keepData b).fault = s.fault := rfl
@[simp] theorem State.keepData_stimuli (s : State) (b : Byte) : (s.keepData b).stimuli = s.stimuli := rfl
@[simp] theorem State.keepData_rx (s : State) (b : Byte) : (s.keepData b).rx = s.rx := rfl
@[simp] theorem State.keepData_drawCount (s : State) (b : Byte) : (s.keepData b).drawCount = s.drawCount := rfl

@[simp] theorem State.clearFlags_cfg (s : State) (d : Byte) : (s.clearFlags d).cfg = s.cfg := rfl
@[simp] theorem State.clearFlags_regs (s : State) (d : Byte) : (s.clearFlags d).regs = s.regs := rfl
@[simp] theorem State.clearFlags_rxDr (s : State) (d : Byte) : (s.clearFlags d).rxDr = (s.rxDr && !d.getLsbD 6) := rfl
@[simp] theorem State.clearFlags_txDs (s : State) (d : Byte) : (s.clearFlags d).txDs = (s.txDs && !d.getLsbD 5) := rfl
@[simp] theorem State.clearFlags_maxRt (s : State) (d : Byte) : (s.clearFlags d).maxRt = (s.maxRt && !d.getLsbD 4) := rfl
@[simp] theorem State.clearFlags_mode (s : State) (d : Byte) : (s.clearFlags d).mode = s.mode := rfl
@[simp] theorem State.clearFlags_ce (s : State) (d : Byte) : (s.clearFlags d).ce = s.ce := rfl
@[simp] theorem State.clearFlags_txArmed (s : State) (d : Byte) : (s.clearFlags d).txArmed = s.txArmed := rfl
@[simp] theorem State.clearFlags_txq (s : State) (d : Byte) : (s.clearFlags d).txq = s.txq := rfl
@[simp] theorem State.clearFlags_rxq (s : State) (d : Byte) : (s.clearFlags d).rxq = s.rxq := rfl
@[simp] theorem State.clearFlags_fs (s : State) (d : Byte) : (s.clearFlags d).fs = s.fs := rfl
@[simp] theorem State.clearFlags_fidx (s : State) (d : Byte) : (s.clearFlags d).fidx = s.fidx := rfl
@[simp] theorem State.clearFlags_cmd (s : State) (d : Byte) : (s.clearFlags d).cmd = s.cmd := rfl
@[simp] theorem State.clearFlags_dbuf (s : State) (d : Byte) : (s.clearFlags d).dbuf = s.dbuf := rfl
@[simp] theorem State.clearFlags_rdl (s : State) (d : Byte) : (s.clearFlags d).rdl = s.rdl := rfl
@[simp] theorem State.clearFlags_fault (s : State) (d : Byte) : (s.clearFlags d).fault = s.fault := rfl
@[simp] theorem State.clearFlags_stimuli (s : State) (d : Byte) : (s.clearFlags d).stimuli = s.stimuli := rfl
@[simp] theorem State.clearFlags_rx (s : State) (d : Byte) : (s.clearFlags d).rx = s.rx := rfl
@[simp] theorem State.clearFlags_drawCount (s : State) (d : Byte) : (s.clearFlags d).drawCount = s.drawCount := rfl

@[simp] theorem State.drawByte_cfg (s : State) : s.drawByte.2.cfg = s.cfg := rfl
@[simp] theorem State.drawByte_regs (s : State) : s.drawByte.2.regs = s.regs := rfl
@[simp] theorem State.drawByte_rxDr (s : State) : s.drawByte.2.rxDr = s.rxDr := rfl
@[simp] theorem State.drawByte_txDs (s : State) : s.drawByte.2.txDs = s.txDs := rfl
@[simp] theorem State.drawByte_maxRt (s : State) : s.drawByte.2.maxRt = s.maxRt := rfl
@[simp] theorem State.drawByte_mode (s : State) : s.drawByte.2.mode = s.mode := rfl
@[simp] theorem State.drawByte_ce (s : State) : s.drawByte.2.ce = s.ce := rfl
@[simp] theorem State.drawByte_txArmed (s : State) : s.drawByte.2.txArmed = s.txArmed := rfl
@[simp] theorem State.drawByte_txq (s : State) : s.drawByte.2.txq = s.txq := rfl
@[simp] theorem State.drawByte_rxq (s : State) : s.drawByte.2.rxq = s.rxq := rfl
@[simp] theorem State.drawByte_fs (s : State) : s.drawByte.2.fs = s.fs := rfl
@[simp] theorem State.drawByte_fidx (s : State) : s.drawByte.2.fidx = s.fidx := rfl
@[simp] theorem State.drawByte_cmd (s : State) : s.drawByte.2.cmd = s.cmd := rfl
@[simp] theorem State.drawByte_dbuf (s : State) : s.drawByte.2.dbuf = s.dbuf := rfl
@[simp] theorem State.drawByte_rdl (s : State) : s.drawByte.2.rdl = s.rdl := rfl
@[simp] theorem State.drawByte_fault (s : State) : s.drawByte.2.fault = s.fault := rfl
@[simp] theorem State.drawByte_stimuli (s : State) : s.drawByte.2.stimuli = s.stimuli := rfl
@[simp] theorem State.drawByte_rx (s : State) : s.drawByte.2.rx = s.rx := rfl
@[simp] theorem State.drawByte_drawCount (s : State) : s.drawByte.2.drawCount = s.drawCount + 1 := rfl

@[simp] theorem State.drawBytes_cfg (s : State) (n : Nat) : (s.drawBytes n).2.cfg = s.cfg := rfl
@[simp] theorem State.drawBytes_regs (s : State) (n : Nat) : (s.drawBytes n).2.regs = s.regs := rfl
@[simp] theorem State.drawBytes_rxDr (s : State) (n : Nat) : (s.drawBytes n).2.rxDr = s.rxDr := rfl
@[simp] theorem State.drawBytes_txDs (s : State) (n : Nat) : (s.drawBytes n).2.txDs = s.txDs := rfl
@[simp] theorem State.drawBytes_maxRt (s : State) (n : Nat) : (s.drawBytes n).2.maxRt = s.maxRt := rfl
@[simp] theorem State.drawBytes_mode (s : State) (n : Nat) : (s.drawBytes n).2.mode = s.mode := rfl
@[simp] theorem State.drawBytes_ce (s : State) (n : Nat) : (s.drawBytes n).2.ce = s.ce := rfl
@[simp] theorem State.drawBytes_txArmed (s : State) (n : Nat) : (s.drawBytes n).2.txArmed = s.txArmed := rfl
@[simp] theorem State.drawBytes_txq (s : State) (n : Nat) : (s.drawBytes n).2.txq = s.txq := rfl
@[simp] theorem State.drawBytes_rxq (s : State) (n : Nat) : (s.drawBytes n).2.rxq = s.rxq := rfl
@[simp] theorem State.drawBytes_fs (s : State) (n : Nat) : (s.drawBytes n).2.fs = s.fs := rfl
@[simp] theorem State.drawBytes_fidx (s : State) (n : Nat) : (s.drawBytes n).2.fidx = s.fidx := rfl
@[simp] theorem State.drawBytes_cmd (s : State) (n : Nat) : (s.drawBytes n).2.cmd = s.cmd := rfl
@[simp] theorem State.drawBytes_dbuf (s : State) (n : Nat) : (s.drawBytes n).2.dbuf = s.dbuf := rfl
@[simp] theorem State.drawBytes_rdl (s : State) (n : Nat) : (s.drawBytes n).2.rdl = s.rdl := rfl
@[simp] theorem State.drawBytes_fault (s : State) (n : Nat) : (s.drawBytes n).2.fault = s.fault := rfl
@[simp] theorem State.drawBytes_stimuli (s : State) (n : Nat) : (s.drawBytes n).2.stimuli = s.stimuli := rfl
@[simp] theorem State.drawBytes_rx (s : State) (n : Nat) : (s.drawBytes n).2.rx = s.rx := rfl
@[simp] theorem State.drawBytes_drawCount (s : State) (n : Nat) : (s.drawBytes n).2.drawCount = s.drawCount + n := rfl

@[simp] theorem latchReadPayload_cfg (s : State) : (latchReadPayload s).cfg = s.cfg := rfl
@[simp] theorem latchReadPayload_regs (s : State) : (latchReadPayload s).regs = s.regs := rfl
@[simp] theorem latchReadPayload_rxDr (s : State) : (latchReadPayload s).rxDr = s.rxDr := rfl
@[simp] theorem latchReadPayload_txDs (s : State) : (latchReadPayload s).txDs = s.txDs := rfl
@[simp] theorem latchReadPayload_maxRt (s : State) : (latchReadPayload s).maxRt = s.maxRt := rfl
@[simp] theorem latchReadPayload_mode (s : State) : (latchReadPayload s).mode = s.mode := rfl
@[simp] theorem latchReadPayload_ce (s : State) : (latchReadPayload s).ce = s.ce := rfl
@[simp] theorem latchReadPayload_txArmed (s : State) : (latchReadPayload s).txArmed = s.txArmed := rfl
@[simp] theorem latchReadPayload_txq (s : State) : (latchReadPayload s).txq = s.txq := rfl
@[simp] theorem latchReadPayload_rxq (s : State) : (latchReadPayload s).rxq = s.rxq := rfl
@[simp] theorem latchReadPayload_fs (s : State) : (latchReadPayload s).fs = s.fs := rfl
@[simp] theorem latchReadPayload_fidx (s : State) : (latchReadPayload s).fidx = s.fidx := rfl
@[simp] theorem latchReadPayload_cmd (s : State) : (latchReadPayload s).cmd = s.cmd := rfl
@[simp] theorem latchReadPayload_dbuf (s : State) : (latchReadPayload s).dbuf = s.dbuf := rfl
@[simp] theorem latchReadPayload_rdl (s : State) : (latchReadPayload s).rdl = s.rxq.head? := rfl
@[simp] theorem latchReadPayload_fault (s : State) : (latchReadPayload s).fault = s.fault := rfl
@[simp] theorem latchReadPayload_stimuli (s : State) : (latchReadPayload s).stimuli = s.stimuli := rfl
@[simp] theorem latchReadPayload_rx (s : State) : (latchReadPayload s).rx = s.rx := rfl
@[simp] theorem latchReadPayload_drawCount (s : State) : (latchReadPayload s).drawCount = s.drawCount := rfl

@[simp] theorem commitFlushTx_cfg (s : State) : (commitFlushTx s).cfg = s.cfg := rfl
@[simp] theorem commitFlushTx_regs (s : State) : (commitFlushTx s).regs = s.regs := rfl
@[simp] theorem commitFlushTx_rxDr (s : State) : (commitFlushTx s).rxDr = s.rxDr := rfl
@[simp] theorem commitFlushTx_txDs (s : State) : (commitFlushTx s).txDs = s.txDs := rfl
@[simp] theorem commitFlushTx_maxRt (s : State) : (commitFlushTx s).maxRt = s.maxRt := rfl
@[simp] theorem commitFlushTx_mode (s : State) : (commitFlushTx s).mode = s.mode := rfl
@[simp] theorem commitFlushTx_ce (s : State) : (commitFlushTx s).ce = s.ce := rfl
@[simp] theorem commitFlushTx_txArmed (s : State) : (commitFlushTx s).txArmed = false := rfl
@[simp] theorem commitFlushTx_txq (s : State) : (commitFlushTx s).txq = [] := rfl
@[simp] theorem commitFlushTx_rxq (s : State) : (commitFlushTx s).rxq = s.rxq := rfl
@[simp] theorem commitFlushTx_fs (s : State) : (commitFlushTx s).fs = s.fs := rfl
@[simp] theorem commitFlushTx_fidx (s : State) : (commitFlushTx s).fidx = s.fidx := rfl
@[simp] theorem commitFlushTx_cmd (s : State) : (commitFlushTx s).cmd = s.cmd := rfl
@[simp] theorem commitFlushTx_dbuf (s : State) : (commitFlushTx s).dbuf = s.dbuf := rfl
@[simp] theorem commitFlushTx_rdl (s : State) : (commitFlushTx s).rdl = s.rdl := rfl
@[simp] theorem commitFlushTx_fault (s : State) : (commitFlushTx s).fault = s.fault := rfl
@[simp] theorem commitFlushTx_stimuli (s : State) : (commitFlushTx s).stimuli = s.stimuli := rfl
@[simp] theorem commitFlushTx_rx (s : State) : (commitFlushTx s).rx = s.rx := rfl
@[simp] theorem commitFlushTx_drawCount (s : State) : (commitFlushTx s).drawCount = s.drawCount := rfl

@[simp] theorem commitFlushRx_cfg (s : State) : (commitFlushRx s).cfg = s.cfg := rfl
@[simp] theorem commitFlushRx_regs (s : State) : (commitFlushRx s).regs = s.regs := rfl
@[simp] theorem commitFlushRx_rxDr (s : State) : (commitFlushRx s).rxDr = s.rxDr := rfl
@[simp] theorem commitFlushRx_txDs (s : State) : (commitFlushRx s).txDs = s.txDs := rfl
@[simp] theorem commitFlushRx_maxRt (s : State) : (commitFlushRx s).maxRt = s.maxRt := rfl
@[simp] theorem commitFlushRx_mode (s : State) : (commitFlushRx s).mode = s.mode := rfl
@[simp] theorem commitFlushRx_ce (s : State) : (commitFlushRx s).ce = s.ce := rfl
@[simp] theorem commitFlushRx_txArmed (s : State) : (commitFlushRx s).txArmed = s.txArmed := rfl
@[simp] theorem commitFlushRx_txq (s : State) : (commitFlushRx s).txq = s.txq := rfl
@[simp] theorem commitFlushRx_rxq (s : State) : (commitFlushRx s).rxq = [] := rfl
@[simp] theorem commitFlushRx_fs (s : State) : (commitFlushRx s).fs = s.fs := rfl
@[simp] theorem commitFlushRx_fidx (s : State) : (commitFlushRx s).fidx = s.fidx := rfl
@[simp] theorem commitFlushRx_cmd (s : State) : (commitFlushRx s).cmd = s.cmd := rfl
@[simp] theorem commitFlushRx_dbuf (s : State) : (commitFlushRx s).dbuf = s.dbuf := rfl
@[simp] theorem commitFlushRx_rdl (s : State) : (commitFlushRx s).rdl = s.rdl := rfl
@[simp] theorem commitFlushRx_fault (s : State) : (commitFlushRx s).fault = s.fault := rfl
@[simp] theorem commitFlushRx_stimuli (s : State) : (commitFlushRx s).stimuli = s.stimuli := rfl
@[simp] theorem commitFlushRx_rx (s : State) : (commitFlushRx s).rx = s.rx := rfl
@[simp] theorem commitFlushRx_drawCount (s : State) : (commitFlushRx s).drawCount = s.drawCount := rfl

@[simp] theorem State.arm_cfg (s : State) : s.arm.cfg = s.cfg := by unfold State.arm; split <;> rfl
@[simp] theorem State.arm_regs (s : State) : s.arm.regs = s.regs := by unfold State.arm; split <;> rfl
@[simp] theorem State.arm_rxDr (s : State) : s.arm.rxDr = s.rxDr := by unfold State.arm; split <;> rfl
@[simp] theorem State.arm_txDs (s : State) : s.arm.txDs = s.txDs := by unfold State.arm; split <;> rfl
@[simp] theorem State.arm_maxRt (s : State) : s.arm.maxRt = s.maxRt := by unfold State.arm; split <;> rfl
@[simp] theorem State.arm_mode (s : State) : s.arm.mode = s.mode := by unfold State.arm; split <;> rfl
@[simp] theorem State.arm_ce (s : State) : s.arm.ce = s.ce := by unfold State.arm; split <;> rfl
@[simp] theorem State.arm_txq (s : State) : s.arm.txq = s.txq := by unfold State.arm; split <;> rfl
@[simp] theorem State.arm_rxq (s : State) : s.arm.rxq = s.rxq := by unfold State.arm; split <;> rfl
@[simp] theorem State.arm_fs (s : State) : s.arm.fs = s.fs := by unfold State.arm; split <;> rfl
@[simp] theorem State.arm_fidx (s : State) : s.arm.fidx = s.fidx := by unfold State.arm; split <;> rfl
@[simp] theorem State.arm_cmd (s : State) : s.arm.cmd = s.cmd := by unfold State.arm; split <;> rfl
@[simp] theorem State.arm_dbuf (s : State) : s.arm.dbuf = s.dbuf := by unfold State.arm; split <;> rfl
@[simp] theorem State.arm_rdl (s : State) : s.arm.rdl = s.rdl := by unfold State.arm; split <;> rfl
@[simp] theorem State.arm_fault (s : State) : s.arm.fault = s.fault := by unfold State.arm; split <;> rfl
@[simp] theorem State.arm_stimuli (s : State) : s.arm.stimuli = s.stimuli := by unfold State.arm; split <;> rfl
@[simp] theorem State.arm_rx (s : State) : s.arm.rx = s.rx := by unfold State.arm; split <;> rfl
@[simp] theorem State.arm_drawCount (s : State) : s.arm.drawCount = s.drawCount := by unfold State.arm; split <;> rfl

/-- `arm()` sets `tx_armed` exactly when `arm_cond()` holds and never clears it (R206). -/
theorem State.arm_txArmed (s : State) : s.arm.txArmed = (s.txArmed || s.armCond) := by
  unfold State.arm
  cases s.armCond <;> simp

/-- Where `arm_cond()` is false, `arm()` changes nothing. -/
theorem State.arm_eq_self (s : State) (h : s.armCond = false) : s.arm = s := by simp [State.arm, h]

end Sys2Proof.Machine
end

