-- ==== Sys2Proof/Laws/Ops.lean ====
section
/-! SUPPORT. One specification lemma per shared operation of the frame sequencer: what each piece of a bus step gives. -/

namespace Sys2Proof.Machine

/-! ### Composites and faults -/

theorem State.andThen_of_none {s : State} (f : State → State) (h : s.fault = none) : s.andThen f = f s := by
  simp [State.andThen, h]

theorem State.andThen_of_some {s : State} {r : Fault} (f : State → State) (h : s.fault = some r) : s.andThen f = s := by
  simp [State.andThen, h]

/-- A property of the first state that the second move keeps, unless a fault was raised, holds of both moves together. -/
theorem State.andThen_induct {P : State → Prop} {s : State} {f : State → State} (h : P s)
    (hf : s.fault = none → P (f s)) : P (s.andThen f) := by
  unfold State.andThen
  split
  · exact h
  · rename_i hn
    exact hf (by simpa using hn)

/-- Two moves together end without a fault only if both did. -/
theorem State.andThen_fault_none {s : State} {f : State → State} (h : (s.andThen f).fault = none) :
    s.fault = none ∧ s.andThen f = f s := by
  cases hs : s.fault with
  | none => exact ⟨rfl, andThen_of_none f hs⟩
  | some r => simp [andThen_of_some f hs, hs] at h

/-- CSN_RISE whose commit raises no fault (R99). -/
theorem closeFrame_of_none {e : State → State} {s : State} (h : (e s).fault = none) :
    closeFrame e s = (e s).idleFrame.arm := State.andThen_of_none _ h

/-- CSN_RISE whose commit raises a fault changes nothing but the mark (R280). -/
theorem closeFrame_of_some {e : State → State} {s : State} {r : Fault} (h : (e s).fault = some r) :
    closeFrame e s = e s := State.andThen_of_some _ h

/-! ### The pieces of BYTE -/

/-- A data byte beyond `maxdata(cmd)` raises LengthMismatch and nothing else happens (R66). -/
theorem dataByte_over {i : Instr} {c : CommandRule} {b : Byte} {s : State} (h : i.maxData s.cfg ≤ s.fidx - 1) :
    dataByte i c b s = s.raise (.lengthMismatch i (s.fidx - 1)) := if_pos h

/-- A data byte the command takes (R99). -/
theorem dataByte_within {i : Instr} {c : CommandRule} {b : Byte} {s : State} (h : s.fidx - 1 < i.maxData s.cfg) :
    dataByte i c b s = ((respondWith (c.resp (s.fidx - 1) s)).keepData b).advance := if_neg (by omega)

@[simp] theorem dataBytes_nil (i : Instr) (c : CommandRule) (s : State) : dataBytes i c [] s = s := rfl

theorem dataBytes_cons (i : Instr) (c : CommandRule) (b : Byte) (bs : List Byte) (s : State) :
    dataBytes i c (b :: bs) s = (dataByte i c b s).andThen (dataBytes i c bs) := rfl

/-- A property that every data byte keeps, as long as no fault is raised, holds after a list of data bytes. -/
theorem dataBytes_induct {P : State → Prop} {i : Instr} {c : CommandRule} (ds : List Byte) {s : State} (h : P s)
    (hf : s.fault = none) (hd : ∀ b t, P t → t.fault = none → P (dataByte i c b t)) : P (dataBytes i c ds s) := by
  induction ds generalizing s with
  | nil => exact h
  | cons b ds ih => exact State.andThen_induct (hd b s h hf) (fun hn => ih (hd b s h hf) hn)

/-- A property that the pieces of a frame keep, as long as no fault is raised, holds after the whole frame (R99, R280). -/
theorem frameStep_induct {P : State → Prop} {i : Instr} {c : CommandRule} (ds : List Byte) {s : State}
    (hc : P (commandByte i c s.openFrame)) (hf : (commandByte i c s.openFrame).fault = none)
    (hd : ∀ b t, P t → t.fault = none → P (dataByte i c b t)) (hr : ∀ t, P t → t.fault = none → P (riseStep c t)) :
    P (frameStep i c ds s) :=
  State.andThen_induct (dataBytes_induct ds hc hf hd) (hr _ (dataBytes_induct ds hc hf hd))

/-- The data phase of a command that writes: a draw beside each byte (R101), the bytes kept in order (R99). -/
theorem dataBytes_draw {i : Instr} {c : CommandRule} (hr : c.resp = drawResponse) (ds : List Byte) {s : State}
    (hf : s.fault = none) (h1 : 1 ≤ s.fidx) (hm : s.fidx - 1 + ds.length ≤ i.maxData s.cfg) :
    dataBytes i c ds s = { s with rx := s.rx ++ (s.drawBytes ds.length).1, dbuf := s.dbuf ++ ds, fidx := s.fidx + ds.length,
                                  drawCount := s.drawCount + ds.length } := by
  induction ds generalizing s with
  | nil => simp [State.drawBytes]
  | cons b ds ih =>
    have hlt : s.fidx - 1 < i.maxData s.cfg := by simp at hm; omega
    have hb : dataByte i c b s = { s with rx := s.rx ++ [Config.draw s.drawCount], dbuf := s.dbuf ++ [b], fidx := s.fidx + 1,
                                          drawCount := s.drawCount + 1 } := by
      rw [dataByte_within hlt, hr]; rfl
    rw [dataBytes_cons, State.andThen_of_none _ (by rw [hb]; exact hf), hb,
      ih (by exact hf) (by exact Nat.succ_le_succ (Nat.zero_le _)) (by simp at hm ⊢; omega)]
    have hd : (List.range (ds.length + 1)).map (fun k => Config.draw (s.drawCount + k)) =
        Config.draw s.drawCount :: (List.range ds.length).map (fun k => Config.draw (s.drawCount + 1 + k)) := by
      rw [List.range_succ_eq_map]
      simp [Function.comp_def, Nat.add_comm, Nat.add_left_comm]
    simp [State.drawBytes, hd]
    omega

/-- The data phase of a command that returns the bytes `bs`, which nothing in the data phase changes. -/
theorem dataBytes_return {i : Instr} {c : CommandRule} (bs : List Byte) {P : State → Prop}
    (hP : ∀ t r b, P t → P ((t.respond r).keepData b).advance)
    (hr : ∀ k t v, P t → bs[k]? = some v → c.resp k t = (v, t)) (ds : List Byte) {s : State} (hs : P s)
    (hf : s.fault = none) (h1 : 1 ≤ s.fidx) (hl : s.fidx - 1 + ds.length ≤ bs.length) (hm : bs.length ≤ i.maxData s.cfg) :
    dataBytes i c ds s = { s with rx := s.rx ++ (bs.drop (s.fidx - 1)).take ds.length, dbuf := s.dbuf ++ ds,
                                  fidx := s.fidx + ds.length } := by
  induction ds generalizing s with
  | nil => simp
  | cons b ds ih =>
    simp only [List.length_cons] at hl
    have hlt : s.fidx - 1 < bs.length := by omega
    have hv : bs[s.fidx - 1]? = some bs[s.fidx - 1] := List.getElem?_eq_getElem hlt
    have hb : dataByte i c b s = ((s.respond bs[s.fidx - 1]).keepData b).advance := by
      rw [dataByte_within (by omega), hr _ s _ hs hv]; rfl
    rw [dataBytes_cons, hb, State.andThen_of_none _ (by simpa using hf),
      ih (hP s _ b hs) (by simpa using hf) (by simp) (by simp; omega) (by simpa using hm)]
    have hdrop : bs.drop (s.fidx - 1) = bs[s.fidx - 1] :: bs.drop s.fidx := by
      rw [List.drop_eq_getElem_cons hlt]; congr 2; omega
    simp [State.respond, State.keepData, State.advance, hdrop]
    omega

/-! ### Draws and responses -/

theorem byteOrDraw_of_lt {bs : List Byte} {k : Nat} {v : Byte} (s : State) (h : bs[k]? = some v) :
    byteOrDraw bs k s = (v, s) := by simp [byteOrDraw, h]

/-- A response changes at most the count of draws. -/
theorem byteOrDraw_frame (bs : List Byte) (k : Nat) (s : State) :
    ∃ n, (byteOrDraw bs k s).2 = { s with drawCount := n } := by
  unfold byteOrDraw
  split
  · exact ⟨s.drawCount, rfl⟩
  · exact ⟨s.drawCount + 1, rfl⟩

theorem State.drawBytes_length (s : State) (n : Nat) : (s.drawBytes n).1.length = n := by simp [State.drawBytes]

/-! ### Register bytes -/

/-- A write keeps the register's width. -/
@[simp] theorem writeBytes_length (old new : List Byte) : (writeBytes old new).length = old.length := by
  simp [writeBytes]; omega

/-- A write of at most the register's width: its bytes, then the bytes it does not reach (R125, R65). -/
theorem writeBytes_eq {old new : List Byte} (h : new.length ≤ old.length) :
    writeBytes old new = new ++ old.drop new.length := by
  rw [writeBytes, List.take_of_length_le]
  simp; omega

/-- `x[a]` has `width(a)` bytes when the address registers have `AW` (R22). -/
theorem State.readReg_length (s : State) (r : RegName) (h : s.regs.rxAddrP0.length = s.cfg.aw ∧ s.regs.txAddr.length = s.cfg.aw) :
    (s.readReg r).length = r.width s.cfg := by
  cases r <;> simp [State.readReg, RegName.width, h.1, h.2]

theorem State.x_length (s : State) (a : RegAddr) (h : s.regs.rxAddrP0.length = s.cfg.aw ∧ s.regs.txAddr.length = s.cfg.aw) :
    (s.x a).length = regWidth s.cfg a := by
  unfold State.x regWidth
  cases regAt a with
  | none => rfl
  | some r => exact s.readReg_length r h

/-- `x[a]` depends on the parameters, the stored registers, the flags and the FIFOs alone. -/
theorem State.x_congr {s t : State} (hc : t.cfg = s.cfg) (hr : t.regs = s.regs) (h6 : t.rxDr = s.rxDr) (h5 : t.txDs = s.txDs)
    (h4 : t.maxRt = s.maxRt) (ht : t.txq = s.txq) (hx : t.rxq = s.rxq) : t.x = s.x := by
  funext a
  unfold State.x
  cases regAt a with
  | none => rfl
  | some r =>
    cases r <;> simp [State.readReg, State.statusByte, State.fifoStatusByte, State.rxPNo, State.txFull, hc, hr, h6, h5, h4, ht, hx]

/-- The Status byte depends on the parameters, the flags and the FIFOs alone (R25). -/
theorem State.statusByte_congr {s t : State} (hc : t.cfg = s.cfg) (h6 : t.rxDr = s.rxDr) (h5 : t.txDs = s.txDs)
    (h4 : t.maxRt = s.maxRt) (ht : t.txq = s.txq) (hx : t.rxq = s.rxq) : t.statusByte = s.statusByte := by
  simp [State.statusByte, State.rxPNo, State.txFull, hc, h6, h5, h4, ht, hx]

/-- `arm_cond()` depends on the mode, the control line, CONFIG and the TX FIFO alone (R35). -/
theorem State.armCond_congr {s t : State} (hc : t.cfg = s.cfg) (hr : t.regs.config = s.regs.config) (hm : t.mode = s.mode)
    (hce : t.ce = s.ce) (ht : t.txq = s.txq) : t.armCond = s.armCond := by
  simp [State.armCond, State.pwrUp, hc, hr, hm, hce, ht]

/-! ### The catalogue -/

/-- An address names a register exactly when it is that register's address (R21, R22). -/
theorem regAt_eq_some_iff : ∀ (a : RegAddr) (r : RegName), regAt a = some r ↔ a = r.addr := by
  intro a r
  cases r <;> revert a <;> decide

theorem regAt_addr (r : RegName) : regAt r.addr = some r := (regAt_eq_some_iff _ _).2 rfl

/-- The pin depends on the state of the specification alone (R41, R45, log 12). -/
theorem irqPin_congr {s t : State} (h : s.specPart = t.specPart) : s.irqPin = t.irqPin := congrArg Config.irqFn h

end Sys2Proof.Machine
end

