-- ==== Sys2Proof/Laws/Step.lean ====
section
/-! SUPPORT. What a step can do, said once: `exec` is `runCommand` with the command's rule, and `Moved` lists every step
that gives a next state. -/

namespace Sys2Proof.Machine

/-- The rule of each command (40_register_access.md, 41_nop_status.md, 42_fifo_commands.md). -/
def ruleOf : Instr → CommandRule
  | .readRegister a => readRegisterRule a
  | .writeRegister a => writeRegisterRule a
  | .readPayload => readPayloadRule
  | .writePayload => writePayloadRule
  | .flushTx => flushTxRule
  | .flushRx => flushRxRule
  | .nop => nopRule

theorem exec_eq (i : Instr) (s : State) : exec i s = runCommand i (ruleOf i) s := by cases i <;> rfl

/-! ### The bus steps a command runs in -/

theorem exec_fault {i : Instr} {s : State} {r : Fault} (h : s.fault = some r) : exec i s = .fault r := by
  simp [exec_eq, runCommand, h]

theorem exec_command {i : Instr} {s : State} {b : Byte} {rest : List Stimulus} (hf : s.fault = none) (hs : s.fs ≠ .idle)
    (h0 : s.fidx = 0) (hq : s.stimuli = .byte b :: rest) :
    exec i s = .next (commandByte i (ruleOf i) (s.taking rest)) := by
  simp [exec_eq, runCommand, hf, hs, hq, byteStep, h0]

theorem exec_data {i : Instr} {s : State} {b : Byte} {rest : List Stimulus} (hf : s.fault = none) (hs : s.fs ≠ .idle)
    (h0 : s.fidx ≠ 0) (hq : s.stimuli = .byte b :: rest) :
    exec i s = .next (dataByte i (ruleOf i) b (s.taking rest)) := by
  simp [exec_eq, runCommand, hf, hs, hq, byteStep, h0]

theorem exec_rise {i : Instr} {s : State} {rest : List Stimulus} (hf : s.fault = none) (hs : s.fs ≠ .idle)
    (hq : s.stimuli = .csnRise :: rest) : exec i s = .next (riseStep (ruleOf i) (s.taking rest)) := by
  simp [exec_eq, runCommand, hf, hs, hq]

theorem exec_frame {i : Instr} {s : State} {b : Byte} {ds : List Byte} {rest : List Stimulus} (hf : s.fault = none)
    (hs : s.fs = .idle) (hq : s.stimuli = .frame (b :: ds) :: rest) :
    exec i s = .next (frameStep i (ruleOf i) ds (s.taking rest)) := by
  simp [exec_eq, runCommand, hf, hs, hq]

/-- Everything a command can do when it gives a next state (R99). -/
theorem exec_next {i : Instr} {s t : State} (h : exec i s = .next t) :
    s.fault = none ∧
    ((∃ b rest, s.stimuli = .byte b :: rest ∧ s.fs ≠ .idle ∧ s.fidx = 0 ∧ t = commandByte i (ruleOf i) (s.taking rest)) ∨
     (∃ b rest, s.stimuli = .byte b :: rest ∧ s.fs ≠ .idle ∧ s.fidx ≠ 0 ∧ t = dataByte i (ruleOf i) b (s.taking rest)) ∨
     (∃ rest, s.stimuli = .csnRise :: rest ∧ s.fs ≠ .idle ∧ t = riseStep (ruleOf i) (s.taking rest)) ∨
     (∃ b ds rest, s.stimuli = .frame (b :: ds) :: rest ∧ s.fs = .idle ∧ t = frameStep i (ruleOf i) ds (s.taking rest))) := by
  rw [exec_eq, runCommand] at h
  split at h
  · cases h
  · refine ⟨by assumption, ?_⟩
    split at h
    · rename_i b rest hq
      split at h
      · cases h
      · cases h
        by_cases h0 : s.fidx = 0
        · exact .inl ⟨b, rest, hq, by assumption, h0, by simp [byteStep, h0]⟩
        · exact .inr (.inl ⟨b, rest, hq, by assumption, h0, by simp [byteStep, h0]⟩)
    · rename_i rest hq
      split at h
      · cases h
      · cases h; exact .inr (.inr (.inl ⟨rest, hq, by assumption, rfl⟩))
    · rename_i b ds rest hq
      split at h
      · cases h; exact .inr (.inr (.inr ⟨b, ds, rest, hq, by assumption, rfl⟩))
      · cases h
    · cases h

/-! ### What each piece of a command does -/

/-- A response changes at most the count of draws (R101, R120, R162). -/
theorem resp_frame (i : Instr) (k : Nat) (s : State) : ∃ n, ((ruleOf i).resp k s).2 = { s with drawCount := n } := by
  cases i with
  | readRegister a => exact byteOrDraw_frame _ _ _
  | readPayload =>
    simp only [ruleOf, readPayloadRule, respReadPayload]
    split
    · exact byteOrDraw_frame _ _ _
    · exact ⟨_, rfl⟩
  | _ => exact ⟨_, rfl⟩

/-- BYTE at fidx = 0 of a command: only READ_PAYLOAD latches an entry (R99). -/
theorem commandByte_eq (i : Instr) (s : State) :
    ∃ r, commandByte i (ruleOf i) s =
        { s with rx := s.rx ++ [s.statusByte], cmd := some i, fs := .data, rdl := r, fidx := s.fidx + 1 } ∧
      (i ≠ .readPayload → r = s.rdl) ∧ (i = .readPayload → r = s.rxq.head?) := by
  cases i with
  | readPayload => exact ⟨s.rxq.head?, rfl, fun h => absurd rfl h, fun _ => rfl⟩
  | _ => exact ⟨s.rdl, rfl, fun _ => rfl, fun h => by cases h⟩

/-- BYTE at fidx ≥ 1 of a command: LengthMismatch, or one response and one data byte (R99, R66). -/
theorem dataByte_cases (i : Instr) (b : Byte) (s : State) :
    (i.maxData s.cfg ≤ s.fidx - 1 ∧ dataByte i (ruleOf i) b s = s.raise (.lengthMismatch i (s.fidx - 1))) ∨
    (s.fidx - 1 < i.maxData s.cfg ∧ ∃ n, dataByte i (ruleOf i) b s =
      { s with rx := s.rx ++ [((ruleOf i).resp (s.fidx - 1) s).1], dbuf := s.dbuf ++ [b], fidx := s.fidx + 1,
               drawCount := n }) := by
  by_cases h : i.maxData s.cfg ≤ s.fidx - 1
  · exact .inl ⟨h, dataByte_over h⟩
  · obtain ⟨n, hn⟩ := resp_frame i (s.fidx - 1) s
    refine .inr ⟨by omega, n, ?_⟩
    rw [dataByte_within (by omega), respondWith, hn]
    rfl

/-- No commit touches the frame sequencer, the parameters, the control line or what is still to come (R121 to R163). -/
theorem commit_frame (i : Instr) (dbuf : List Byte) (s : State) :
    ((ruleOf i).commit dbuf s).cfg = s.cfg ∧ ((ruleOf i).commit dbuf s).ce = s.ce ∧
    ((ruleOf i).commit dbuf s).stimuli = s.stimuli ∧ ((ruleOf i).commit dbuf s).rx = s.rx ∧
    ((ruleOf i).commit dbuf s).fs = s.fs ∧ ((ruleOf i).commit dbuf s).fidx = s.fidx ∧
    ((ruleOf i).commit dbuf s).cmd = s.cmd ∧ ((ruleOf i).commit dbuf s).dbuf = s.dbuf ∧
    ((ruleOf i).commit dbuf s).rdl = s.rdl := by
  cases i with
  | writeRegister a =>
    simp only [ruleOf, writeRegisterRule, commitWriteRegister]
    split
    · simp
    · split
      · rename_i r _
        cases r <;> simp [commitNamed, commitConfig, commitPlain, commitRxAddrP0, commitTxAddr]
      · simp
  | readPayload =>
    simp only [ruleOf, readPayloadRule, commitReadPayload]
    split <;> simp
  | writePayload =>
    simp only [ruleOf, writePayloadRule, commitWritePayload]
    split
    · simp
    · split <;> simp
  | _ => simp [ruleOf, readRegisterRule, nopRule, flushTxRule, flushRxRule]

/-- CSN_RISE of a command: its commit, the sequencer Idle and `arm()`; or F4 or F5 with nothing else changed (R99, R281). -/
theorem riseStep_cases (i : Instr) (s : State) (hf : s.fault = none) :
    (((ruleOf i).commit s.dbuf s).fault = none ∧
      riseStep (ruleOf i) s = ((ruleOf i).commit s.dbuf s).idleFrame.arm) ∨
    (i = .writeRegister 0x17#5 ∧ s.dbuf ≠ [] ∧ riseStep (ruleOf i) s = s.raise (.readOnlyRegister 0x17#5)) ∨
    (i = .writePayload ∧ s.dbuf ≠ [] ∧ s.txq.length = s.cfg.fifoDepth ∧ riseStep (ruleOf i) s = s.raise .txFifoOverflow) := by
  cases hn : ((ruleOf i).commit s.dbuf s).fault with
  | none => exact .inl ⟨rfl, closeFrame_of_none hn⟩
  | some r =>
    have hr := closeFrame_of_some hn
    right
    cases i with
    | writeRegister a =>
      left
      simp only [ruleOf, writeRegisterRule, commitWriteRegister] at hn
      simp only [riseStep, hr]
      simp only [ruleOf, writeRegisterRule, commitWriteRegister]
      cases hd : s.dbuf with
      | nil => simp [hd, hf] at hn
      | cons d ds =>
        cases ha : regAt a with
        | none => simp [hd, ha, hf] at hn
        | some r =>
          simp only [hd, ha] at hn
          obtain rfl := (regAt_eq_some_iff _ _).1 ha
          cases r <;> first
            | exact ⟨rfl, by simp, rfl⟩
            | simp [commitNamed, commitConfig, commitPlain, commitRxAddrP0, commitTxAddr, hf] at hn
    | writePayload =>
      right
      simp only [ruleOf, writePayloadRule, commitWritePayload] at hn
      simp only [riseStep, hr]
      simp only [ruleOf, writePayloadRule, commitWritePayload]
      by_cases hd : s.dbuf = []
      · simp [hd, hf] at hn
      · by_cases ht : s.txFull = true
        · exact ⟨trivial, hd, by simpa [State.txFull] using ht, by simp [hd, ht]⟩
        · simp [hd, ht, hf] at hn
    | readPayload =>
      simp only [ruleOf, readPayloadRule, commitReadPayload] at hn
      split at hn <;> simp [hf] at hn
    | _ => simp [ruleOf, readRegisterRule, nopRule, flushTxRule, flushRxRule, hf] at hn

/-- A whole frame is what its opening, its command byte and its data bytes leave, or a closing edge after that (R99, R280). -/
theorem frameStep_before_rise {P : State → Prop} {i : Instr} (ds : List Byte) {s : State} (hf : s.fault = none)
    (hc : P (commandByte i (ruleOf i) s.openFrame)) (hd : ∀ b t, P t → t.fault = none → P (dataByte i (ruleOf i) b t)) :
    P (frameStep i (ruleOf i) ds s) ∨
    ∃ u, P u ∧ u.fault = none ∧ frameStep i (ruleOf i) ds s = riseStep (ruleOf i) u := by
  obtain ⟨r, hr, -⟩ := commandByte_eq i s.openFrame
  have hp := dataBytes_induct ds hc (by rw [hr]; exact hf) hd
  cases hn : (dataBytes i (ruleOf i) ds (commandByte i (ruleOf i) s.openFrame)).fault with
  | none => exact .inr ⟨_, hp, hn, State.andThen_of_none _ hn⟩
  | some r => exact .inl (by rw [frameStep, State.andThen_of_some _ hn]; exact hp)

/-- What a command leaves in a bus step: a state that its BYTE steps reach, or a closing edge after one. `P` is any property
that the steps before the closing edge keep. -/
theorem exec_before_rise {P : State → Prop} {i : Instr} {s t : State} (h : exec i s = .next t)
    (h0 : ∀ rest, P (s.taking rest)) (ho : ∀ u, P u → P u.openFrame) (hc : ∀ u, P u → P (commandByte i (ruleOf i) u))
    (hd : ∀ b u, P u → P (dataByte i (ruleOf i) b u)) :
    P t ∨ ∃ u, P u ∧ u.fault = none ∧ t = riseStep (ruleOf i) u := by
  obtain ⟨hf, ⟨b, rest, -, -, -, rfl⟩ | ⟨b, rest, -, -, -, rfl⟩ | ⟨rest, -, -, rfl⟩ | ⟨b, ds, rest, -, -, rfl⟩⟩ := exec_next h
  · exact .inl (hc _ (h0 _))
  · exact .inl (hd _ _ (h0 _))
  · exact .inr ⟨s.taking rest, h0 rest, hf, rfl⟩
  · exact frameStep_before_rise ds hf (hc _ (ho _ (h0 _))) fun b u hu _ => hd b u hu

/-! ### Every step that gives a next state -/

/-- The fault of a command byte that is no command (R97, R98). -/
def rejection : Decoded → Option Fault
  | .command _ => none
  | .reserved a => some (.reservedRegister a)
  | .illegal b => some (.illegalOpcode b)

/-- The steps of R11 and R99, one constructor each: `Moved s t` says that `step s` can only be `t`. -/
inductive Moved (s : State) : State → Prop
  | waits (hq : s.stimuli = []) : Moved s s
  | opens (rest : List Stimulus) (hq : s.stimuli = .csnFall :: rest) (hs : s.fs = .idle) : Moved s (s.taking rest).openFrame
  | rejects (b : Byte) (rest : List Stimulus) (r : Fault) (hq : s.stimuli = .byte b :: rest) (hs : s.fs ≠ .idle)
      (h0 : s.fidx = 0) (hd : rejection (decode s.cfg b) = some r) : Moved s (rejectByte r (s.taking rest))
  | command (i : Instr) (b : Byte) (rest : List Stimulus) (hq : s.stimuli = .byte b :: rest) (hs : s.fs ≠ .idle)
      (h0 : s.fidx = 0) (hd : decode s.cfg b = .command i) : Moved s (commandByte i (ruleOf i) (s.taking rest))
  | data (i : Instr) (b : Byte) (rest : List Stimulus) (hq : s.stimuli = .byte b :: rest) (hs : s.fs ≠ .idle)
      (h0 : s.fidx ≠ 0) (hc : s.cmd = some i) : Moved s (dataByte i (ruleOf i) b (s.taking rest))
  | rises (i : Instr) (rest : List Stimulus) (hq : s.stimuli = .csnRise :: rest) (hs : s.fs ≠ .idle) (hc : s.cmd = some i) :
      Moved s (riseStep (ruleOf i) (s.taking rest))
  | risesEmpty (rest : List Stimulus) (hq : s.stimuli = .csnRise :: rest) (hs : s.fs ≠ .idle) (hc : s.cmd = none) :
      Moved s (s.taking rest).idleFrame.arm
  | frameEmpty (rest : List Stimulus) (hq : s.stimuli = .frame [] :: rest) (hs : s.fs = .idle) :
      Moved s (s.taking rest).openFrame.idleFrame.arm
  | frameRejects (b : Byte) (ds : List Byte) (rest : List Stimulus) (r : Fault) (hq : s.stimuli = .frame (b :: ds) :: rest)
      (hs : s.fs = .idle) (hd : rejection (decode s.cfg b) = some r) : Moved s (rejectByte r (s.taking rest).openFrame)
  | frameRuns (i : Instr) (b : Byte) (ds : List Byte) (rest : List Stimulus) (hq : s.stimuli = .frame (b :: ds) :: rest)
      (hs : s.fs = .idle) (hd : decode s.cfg b = .command i) : Moved s (frameStep i (ruleOf i) ds (s.taking rest))
  | ce (level : Level) (rest : List Stimulus) (hq : s.stimuli = .ce level :: rest) :
      Moved s ({ s.taking rest with ce := level } : State).arm
  | evTxDs (rest : List Stimulus) (hq : s.stimuli = .evTxDs :: rest) (hg : s.txArmed = true) :
      Moved s ({ (s.taking rest).txPop with txDs := true, txArmed := false } : State).arm
  | evMaxRt (rest : List Stimulus) (hq : s.stimuli = .evMaxRt :: rest) (hg : s.txArmed = true) :
      Moved s ({ s.taking rest with maxRt := true, txArmed := false } : State).arm
  | evRx (p : List Byte) (rest : List Stimulus) (hq : s.stimuli = .evRx p :: rest) (hp : p.length = payloadWidth)
      (hg : s.listening = true) (hn : s.rxq.length < s.cfg.fifoDepth) :
      Moved s ({ (s.taking rest).rxPush ⟨0, p⟩ with rxDr := true } : State).arm

/-- What an event step that answers a next state did (R207). -/
theorem stepEvTxDs_next {s t : State} (h : stepEvTxDs s = .next t) :
    s.txArmed = true ∧ t = ({ s.txPop with txDs := true, txArmed := false } : State).arm := by
  unfold stepEvTxDs at h
  split at h
  · cases h; exact ⟨by assumption, rfl⟩
  · cases h

/-- R208. -/
theorem stepEvMaxRt_next {s t : State} (h : stepEvMaxRt s = .next t) :
    s.txArmed = true ∧ t = ({ s with maxRt := true, txArmed := false } : State).arm := by
  unfold stepEvMaxRt at h
  split at h
  · cases h; exact ⟨by assumption, rfl⟩
  · cases h

/-- R209. -/
theorem stepEvRx_next {p : List Byte} {s t : State} (h : stepEvRx p s = .next t) :
    p.length = payloadWidth ∧ s.listening = true ∧ s.rxq.length < s.cfg.fifoDepth ∧
    t = ({ s.rxPush ⟨0, p⟩ with rxDr := true } : State).arm := by
  unfold stepEvRx at h
  split at h
  · cases h
  · split at h
    · rename_i hp hg
      simp only [Bool.and_eq_true, decide_eq_true_eq] at hg
      cases h
      exact ⟨by simpa using hp, hg.1, hg.2, rfl⟩
    · cases h

/-- Reading a command byte: the command it names, or the fault step of a byte that names none. -/
theorem fetchCommand_eq (b : Byte) (s : State) :
    (∃ i, decode s.cfg b = .command i ∧ fetchCommand b s = .run i) ∨
    (∃ r, rejection (decode s.cfg b) = some r ∧ fetchCommand b s = .settled (.next (rejectByte r s))) := by
  unfold fetchCommand
  cases decode s.cfg b <;> simp [rejection]

/-- A step that gives a next state starts without a fault and is one of `Moved`. -/
theorem step_next {s t : State} (h : step s = .next t) : s.fault = none ∧ Moved s t := by
  have ht (rest : List Stimulus) : (s.taking rest).cfg = s.cfg := rfl
  unfold step fetch at h
  split at h
  · rename_i i hi
    split at hi <;> try cases hi
    refine ⟨by assumption, ?_⟩
    split at hi <;> try cases hi
    · split at hi <;> cases hi
    · rename_i hf _ b rest hq
      split at hi <;> try cases hi
      split at hi
      · rename_i hs h0
        rcases fetchCommand_eq b (s.taking rest) with ⟨j, hj, he⟩ | ⟨r, hr, he⟩ <;> rw [he] at hi <;> cases hi
        rw [exec_command hf hs h0 hq] at h
        cases h
        exact .command i b rest hq hs h0 hj
      · split at hi <;> cases hi
        rename_i hs h0 _ hc
        rw [exec_data hf hs h0 hq] at h
        cases h
        exact .data i b rest hq hs h0 hc
    · rename_i hf _ rest hq
      split at hi <;> try cases hi
      split at hi <;> cases hi
      rename_i hs _ hc
      rw [exec_rise hf hs hq] at h
      cases h
      exact .rises i rest hq hs hc
    · rename_i hf _ tx rest hq
      split at hi <;> try cases hi
      split at hi <;> try cases hi
      rename_i hs _ b ds
      rcases fetchCommand_eq b (s.taking rest).openFrame with ⟨j, hj, he⟩ | ⟨r, hr, he⟩ <;> rw [he] at hi <;> cases hi
      rw [exec_frame hf hs hq] at h
      cases h
      exact .frameRuns i b ds rest hq hs hj
  · rename_i o ho
    subst h
    split at ho <;> try cases ho
    refine ⟨by assumption, ?_⟩
    split at ho
    · cases ho; exact .waits (by assumption)
    · split at ho <;> cases ho
      exact .opens _ (by assumption) (by assumption)
    · rename_i b rest hq
      split at ho <;> try cases ho
      split at ho
      · rename_i hs h0
        rcases fetchCommand_eq b (s.taking rest) with ⟨j, hj, he⟩ | ⟨r, hr, he⟩ <;> rw [he] at ho <;> cases ho
        exact .rejects b rest r hq hs h0 hr
      · split at ho <;> cases ho
    · rename_i hf _ rest hq
      split at ho <;> try cases ho
      split at ho <;> cases ho
      rename_i hs _ hc
      have : closeEmpty (s.taking rest) = (s.taking rest).idleFrame.arm := closeFrame_of_none (by simpa using hf)
      rw [this]
      exact .risesEmpty rest hq hs hc
    · rename_i hf _ tx rest hq
      split at ho <;> try cases ho
      rename_i hs
      split at ho
      · cases ho
        have : closeEmpty (s.taking rest).openFrame = (s.taking rest).openFrame.idleFrame.arm :=
          closeFrame_of_none (by simpa using hf)
        rw [this]
        exact .frameEmpty rest hq hs
      · rename_i b ds
        rcases fetchCommand_eq b (s.taking rest).openFrame with ⟨j, hj, he⟩ | ⟨r, hr, he⟩ <;> rw [he] at ho <;> cases ho
        exact .frameRejects b ds rest r hq hs hr
    · rename_i level rest hq
      cases ho; exact .ce level rest hq
    · rename_i rest hq
      obtain ⟨hg, rfl⟩ := stepEvTxDs_next (by simpa using ho)
      exact .evTxDs rest hq hg
    · rename_i rest hq
      obtain ⟨hg, rfl⟩ := stepEvMaxRt_next (by simpa using ho)
      exact .evMaxRt rest hq hg
    · rename_i p rest hq
      obtain ⟨hp, hg, hn, rfl⟩ := stepEvRx_next (by simpa using ho)
      exact .evRx p rest hq hp hg hn

/-- The step of a command byte that is no command (R97, R98). -/
theorem step_rejects {s : State} {b : Byte} {rest : List Stimulus} {r : Fault} (hf : s.fault = none) (hs : s.fs ≠ .idle)
    (h0 : s.fidx = 0) (hq : s.stimuli = .byte b :: rest) (hd : rejection (decode s.cfg b) = some r) :
    step s = .next (rejectByte r (s.taking rest)) := by
  rcases fetchCommand_eq b (s.taking rest) with ⟨j, hj, -⟩ | ⟨r', hr, he⟩
  · simp [show decode s.cfg b = .command j from hj, rejection] at hd
  · obtain rfl : r' = r := Option.some.inj (hr.symm.trans hd)
    simp [step, fetch, hf, hq, hs, h0, he]

/-- The step of a whole frame whose command byte is no command (R97, R98). -/
theorem step_frame_rejects {s : State} {b : Byte} {ds : List Byte} {rest : List Stimulus} {r : Fault} (hf : s.fault = none)
    (hs : s.fs = .idle) (hq : s.stimuli = .frame (b :: ds) :: rest) (hd : rejection (decode s.cfg b) = some r) :
    step s = .next (rejectByte r (s.taking rest).openFrame) := by
  rcases fetchCommand_eq b (s.taking rest).openFrame with ⟨j, hj, -⟩ | ⟨r', hr, he⟩
  · simp [show decode s.cfg b = .command j from hj, rejection] at hd
  · obtain rfl : r' = r := Option.some.inj (hr.symm.trans hd)
    simp [step, fetch, hf, hq, hs, he]

end Sys2Proof.Machine
end

