-- ==== Sys2Proof/Laws/Host.lean ====
section
/-! SUPPORT. One specification lemma per operation of the driver: what it amounts to when every transaction is delivered;
what of a payload `pad32` keeps; and that the response the host reads has as many bytes as its frame. -/

namespace Sys2Proof.Machine

/-! ### pad32 (44_host_sequences.md R248) -/

theorem pad32_of_length {bytes : List Byte} (h : bytes.length = payloadWidth) : (pad32 bytes).toList = bytes := by
  simp [pad32, padBytes, h]

/-- Padding keeps the payload's own bytes, in order. -/
theorem pad32_pads {bytes : List Byte} (h : bytes.length ≤ payloadWidth) : bytes <:+: (pad32 bytes).toList := by
  simp only [pad32, padBytes, h, if_true, Vector.toList_mk]
  split
  · exact (List.suffix_append _ _).isInfix
  · exact (List.prefix_append _ _).isInfix

/-- Truncation keeps bytes of the payload, in order, from one end. -/
theorem pad32_truncates {bytes : List Byte} (h : payloadWidth < bytes.length) : (pad32 bytes).toList <:+: bytes := by
  simp only [pad32, padBytes, Nat.not_le.2 h, if_false, Vector.toList_mk]
  split
  · exact (List.drop_suffix _ _).isInfix
  · exact (List.take_prefix _ _).isInfix

/-! ### Interleavings (20_memory.md R74) -/

/-- The host's steps alone are one of their interleavings. -/
theorem interleaves_self {host : List Stimulus} (h : ∀ x ∈ host, x.byHost = true) : Interleaves host host := by
  rw [Interleaves, List.filter_eq_self.2 h]

/-- A step of the radio link may be put in front. -/
theorem interleaves_radio_cons {host run : List Stimulus} {e : Stimulus} (he : e.byHost = false) (h : Interleaves host run) :
    Interleaves host (e :: run) := by
  rw [Interleaves, List.filter_cons_of_neg (by simp [he])]; exact h

/-- Runs of two operations one after the other. -/
theorem interleaves_append {host host' run run' : List Stimulus} (h : Interleaves host run) (h' : Interleaves host' run') :
    Interleaves (host ++ host') (run ++ run') := by
  rw [Interleaves, List.filter_append, List.flatMap_append, List.flatMap_append, show _ = _ from h, show _ = _ from h']

/-- A composite frame may be split into its micro-steps. -/
theorem interleaves_microSteps (tx : List Byte) : Interleaves [.frame tx] (microSteps tx) := by
  have hb : (microSteps tx).filter Stimulus.byHost = microSteps tx := by
    refine List.filter_eq_self.2 fun x hx => ?_
    simp only [microSteps, List.mem_cons, List.mem_append, List.mem_map, List.not_mem_nil, or_false] at hx
    rcases hx with rfl | ⟨b, -, rfl⟩ | rfl <;> rfl
  have hm : (tx.map Stimulus.byte).flatMap Stimulus.microSteps = tx.map Stimulus.byte := by
    induction tx <;> simp_all [Stimulus.microSteps, microSteps]
  rw [Interleaves, hb]
  simp [microSteps, Stimulus.microSteps, hm]

/-! ### Transactions -/

@[simp] theorem bytesOf_toList (l : List Byte) : (bytesOf l).toList = l := rfl

@[simp] theorem frameOf_toList {n : Nat} (b : Byte) (data : Vector Byte n) : (frameOf b data).toList = b :: data.toList := rfl

/-- The bytes a frame adds to the response: one beside each data byte (20_memory.md R78). -/
theorem dataBytes_rx (i : Instr) (ds : List Byte) (s : State) (h : (dataBytes i (ruleOf i) ds s).fault = none) :
    ∃ l, (dataBytes i (ruleOf i) ds s).rx = s.rx ++ l ∧ l.length = ds.length := by
  induction ds generalizing s with
  | nil => exact ⟨[], by simp, rfl⟩
  | cons b ds ih =>
    rw [dataBytes_cons] at h ⊢
    obtain ⟨h1, h2⟩ := State.andThen_fault_none h
    rw [h2] at h ⊢
    obtain ⟨l, hl, hn⟩ := ih _ h
    rcases dataByte_cases i b s with ⟨-, hd⟩ | ⟨-, n, hd⟩
    · rw [hd] at h1; simp at h1
    · rw [hl, hd]; exact ⟨((ruleOf i).resp (s.fidx - 1) s).1 :: l, by simp, by simp [hn]⟩

/-- The response to a frame that completes has as many bytes as the frame, the first the Status byte of before it (00_scope.md
R9, 20_memory.md R78): what a delivered request of R240 is answered with. -/
theorem hostReads_frame {n : Nat} {s t : State} {tx : Vector Byte (n + 1)} {rest : List Stimulus}
    (hq : s.stimuli = .frame tx.toList :: rest) (h : step s = .next t) (ht : t.fault = none) :
    ∃ rx, hostReads (n + 1) t = some rx ∧ (splitResponse rx).1 = s.statusByte := by
  have key : ∃ l, t.rx = s.statusByte :: l ∧ l.length = n := by
    obtain ⟨hf, hm⟩ := step_next h
    have hlen : tx.toList.length = n + 1 := by simp
    cases hm with
    | frameRuns i b ds rest' hq' hs hd =>
      have htx : tx.toList = b :: ds := by
        rw [hq] at hq'; exact Stimulus.frame.inj (List.cons.inj hq').1
      rw [frameStep] at ht ⊢
      obtain ⟨hu, he⟩ := State.andThen_fault_none ht
      obtain ⟨l, hl, hn⟩ := dataBytes_rx i ds _ hu
      obtain ⟨r, hr, -⟩ := commandByte_eq i (s.taking rest').openFrame
      have hrx : (commandByte i (ruleOf i) (s.taking rest').openFrame).rx = [s.statusByte] := by rw [hr]; rfl
      refine ⟨l, ?_, by rw [htx] at hlen; simpa [hn] using hlen⟩
      rw [he] at ht ⊢
      rcases riseStep_cases i _ hu with ⟨-, h2⟩ | ⟨-, -, h2⟩ | ⟨-, -, -, h2⟩ <;> rw [h2] at ht ⊢
      · simp [(commit_frame i _ _).2.2.2.1, hl, hrx]
      · simp at ht
      · simp at ht
    | frameRejects => simp [rejectByte] at ht
    | frameEmpty rest' hq' hs =>
      rw [hq] at hq'
      have : tx.toList = [] := Stimulus.frame.inj (List.cons.inj hq').1
      simp [this] at hlen
    | _ => simp_all
  obtain ⟨l, hl, hn⟩ := key
  have hlen : t.rx.length = n + 1 := by simp [hl, hn]
  exact ⟨⟨t.rx.toArray, hlen⟩, by simp [hostReads, hlen], by simp [splitResponse, hl]⟩

/-- A request that is delivered. -/
def Transport.isDelivered {n : Nat} : Transport n → Bool
  | .delivered _ => true
  | .busy | .failed _ _ => false

theorem transactError_delivered {n : Nat} {t : Transport (n + 1)} (h : t.isDelivered = true) : transactError t = none := by
  cases t <;> simp_all [Transport.isDelivered, transactError, transactResult]

/-- A delivered request of at least one byte is its frame, without an error (R240). -/
theorem send_delivered {n : Nat} {tx : Vector Byte (n + 1)} {t : Transport (n + 1)} (h : t.isDelivered = true) :
    send tx t = ⟨[.frame tx.toList], none⟩ := by
  rw [send, transactError_delivered h]
  cases t <;> simp_all [Transport.isDelivered, transact]

/-- One delivered request before others. -/
theorem sendAll_cons {n : Nat} (tx : Vector Byte (n + 1)) {t : Transport (n + 1)} (goesOn : Bool) (h : t.isDelivered = true)
    (rest : List Transaction) :
    sendAll (⟨tx, t, goesOn⟩ :: rest) = ⟨.frame tx.toList :: (sendAll rest).steps, (sendAll rest).error⟩ := by
  rw [sendAll, send_delivered h]
  rfl

theorem sendAll_nil : sendAll [] = ⟨[], none⟩ := rfl

/-- A transition whose CONFIG transaction is delivered (R249, R250). -/
theorem toTransmit_delivered (recorded : Mode) (c : Byte) {t : Transport 2} (h : t.isDelivered = true) :
    toTransmit recorded c t = ⟨toTransmitSeq recorded c, .transmit, none⟩ := by
  cases recorded <;> simp [toTransmit, transition, toTransmitSeq, recordedAfter, transactError_delivered h]

theorem toReceive_delivered (recorded : Mode) (c : Byte) {t : Transport 2} (h : t.isDelivered = true) :
    toReceive recorded c t = ⟨toReceiveSeq recorded c, .receive, none⟩ := by
  cases recorded <;> simp [toReceive, transition, toReceiveSeq, recordedAfter, transactError_delivered h]

/-- Every transaction of a cleanup is delivered. -/
abbrev CleanupReplies.delivered (r : CleanupReplies) : Prop :=
  r.flush.isDelivered = true ∧ r.rxDr.isDelivered = true ∧ r.status.isDelivered = true

/-- `cleanup` with every transaction delivered (R252). -/
theorem cleanup_delivered (ch : DriverChoices) {r : CleanupReplies} (h : r.delivered) : cleanup ch r = ⟨cleanupSeq, none⟩ := by
  simp only [cleanup, cleanupTransactions, sendAll_cons _ _ h.1, sendAll_cons _ _ h.2.1, sendAll_cons _ _ h.2.2, sendAll_nil]
  rfl

/-! ### The protocols -/

/-- The flag clears of `transmit`'s step 6 with every transaction delivered. -/
theorem transmitClears_delivered (ch : DriverChoices) {r : TransmitReplies} (hc : r.clear.isDelivered = true)
    (hf : r.flush.isDelivered = true) (o : TransmitOutcome) :
    sendAll (transmitClears ch r o) = ⟨(transmitClears ch r o).map fun t => .frame t.frame.toList, none⟩ := by
  cases o <;> simp only [transmitClears, sendAll_cons _ _ hc, sendAll_cons _ _ hf, sendAll_nil] <;> rfl

/-- `transmit` with every transaction delivered and the Status byte `s` polled (R254): steps 1 to 7, and Receive recorded. -/
theorem transmit_delivered (cfg : Config) (ch : DriverChoices) (recorded : Mode) {payload : List Byte} (cTx cRx : Byte)
    {r : TransmitReplies} {s : Byte} (hp : transmitAccepts payload = true) (h2 : r.load.isDelivered = true)
    (h3 : r.toTx.isDelivered = true) (h5 : r.poll = .delivered #v[s]) (hc : r.clear.isDelivered = true)
    (hf : r.flush.isDelivered = true) (h7 : r.toRx.isDelivered = true) :
    transmit cfg ch recorded payload cTx cRx r =
      ⟨.ce .low :: (.frame (writePayloadFrame payload).toList :: toTransmitSeq recorded cTx) ++
          (pulseSeq ++ [.frame (commandFrame cfg.nopOpcode #v[]).toList]) ++
          (transmitClears ch r (transmitOutcome s)).map (fun t => .frame t.frame.toList) ++ toReceiveSeq .transmit cRx,
        .receive, transmitOutcome s⟩ := by
  have hpoll : codecResult r.poll = .ok (s, #v[]) := by
    rw [h5]; rfl
  have hsent : transact (commandFrame cfg.nopOpcode #v[]) r.poll = [.frame (commandFrame cfg.nopOpcode #v[]).toList] := by
    rw [h5]; rfl
  simp only [transmit, hp, if_true, send_delivered h2, toTransmit_delivered _ _ h3, transmitPulse, hpoll, hsent, transmitSettle,
    transmitClears_delivered _ hc hf, transmitReturn, toReceive_delivered _ _ h7]
  simp

/-- `receive` with every transaction delivered (R255): without data the bare cleanup, with data the read and the cleanup
between a drop and a raise of CE. -/
theorem receive_delivered (ch : DriverChoices) (recorded : Mode) (cRx : Byte) (dummies : Vector Byte payloadWidth)
    {r : ReceiveReplies} {sp f : Byte} {rx : Vector Byte (payloadWidth + 1)} (h1 : r.reset.isDelivered = true)
    (h2 : r.toRx.isDelivered = true) (h3 : r.probe = .delivered #v[sp, f]) (h4 : r.payload = .delivered rx)
    (hc : r.cleanup.delivered) :
    receive ch recorded cRx dummies r =
      ⟨.frame (clearFrame 0x70#8).toList :: (toReceiveSeq recorded cRx ++ .frame rxHasDataFrame.toList ::
          (if f.getLsbD 0 = true then cleanupSeq
           else .ce .low :: .frame (readPayloadFrame dummies).toList :: .ce .high :: .ce .low :: (cleanupSeq ++ [.ce .high]))),
        .receive, if f.getLsbD 0 = true then .noData else .payload (splitResponse rx).2⟩ := by
  have hprobe : transact rxHasDataFrame r.probe = [.frame rxHasDataFrame.toList] := by
    rw [h3]; rfl
  have hread : fifoStatusRead r.probe = some f := by
    rw [h3]; rfl
  have hseq : readPayloadSeq ch dummies r.payload = [.ce .low, .frame (readPayloadFrame dummies).toList, .ce .high] := by
    rw [h4]; rfl
  have hbytes : readPayloadResult r.payload = .ok (splitResponse rx).2 := by
    rw [h4]; rfl
  simp only [receive, send_delivered h1, toReceive_delivered _ _ h2, receivePoll, hprobe, hread, rxHasData, receiveRead, hseq,
    hbytes, cleanup_delivered ch hc, afterCleanup]
  cases hb : f.getLsbD 0 <;> simp

/-- Step 7 ends in Receive when its CONFIG transaction is delivered (R250, R254). -/
theorem transmitReturn_recorded (steps : List Stimulus) (recorded : Mode) (outcome : TransmitOutcome) (cRx : Byte)
    {r : TransmitReplies} (h7 : r.toRx.isDelivered = true) :
    (transmitReturn steps recorded outcome cRx r).recorded = .receive := by
  simp only [transmitReturn, toReceive_delivered _ _ h7]

/-- A failed step 3 leaves Receive recorded: only from Receive does `to_transmit` send anything (R249). -/
theorem toTransmit_failed {recorded : Mode} {c : Byte} {t : Transport 2} {e : HostError}
    (h : (toTransmit recorded c t).result = some e) : (toTransmit recorded c t).recorded = .receive := by
  cases recorded <;> cases t <;> simp_all [toTransmit, transition, recordedAfter, transactError, transactResult]

/-- Whatever else of `transmit` fails, it leaves Receive recorded (R254, R285), if the write of its step 7, where one is sent,
is delivered (R250 says what a failed one leaves). -/
theorem transmit_leaves_receive (cfg : Config) (ch : DriverChoices) (recorded : Mode) {payload : List Byte} (cTx cRx : Byte)
    {r : TransmitReplies} (hp : transmitAccepts payload = true) (h7 : r.toRx.isDelivered = true) :
    (transmit cfg ch recorded payload cTx cRx r).recorded = .receive := by
  simp only [transmit, hp, if_true]
  split
  · exact transmitReturn_recorded _ _ _ _ h7
  · split
    · exact toTransmit_failed (by assumption)
    · simp only [transmitPulse]
      split
      · exact transmitReturn_recorded _ _ _ _ h7
      · exact transmitReturn_recorded _ _ _ _ h7

/-- Whatever else of `receive` fails, it leaves Receive recorded (R255, R285), if the write of its step 2, where one is sent,
is delivered. -/
theorem receive_leaves_receive (ch : DriverChoices) (recorded : Mode) (cRx : Byte) (dummies : Vector Byte payloadWidth)
    {r : ReceiveReplies} (h2 : r.toRx.isDelivered = true) :
    (receive ch recorded cRx dummies r).recorded = .receive := by
  simp only [receive, toReceive_delivered _ _ h2]
  split <;> rfl

/-- Every transaction of a boot is delivered. -/
abbrev BootReplies.delivered {v : BootBytes} (r : BootReplies v) : Prop :=
  (r.config.isDelivered = true ∧ r.setupAw.isDelivered = true ∧ r.setupRetr.isDelivered = true ∧
    r.rxAddrP0.isDelivered = true ∧ r.txAddr.isDelivered = true ∧ r.rfCh.isDelivered = true) ∧
  r.rfSetup.isDelivered = true ∧ r.dynpd.isDelivered = true ∧ r.feature.isDelivered = true ∧ r.enAa.isDelivered = true ∧
    r.status.isDelivered = true ∧ r.flush.isDelivered = true

theorem bootTransactions_frames (goesOn : Vector Bool 12) (v : BootBytes) (r : BootReplies v) :
    (bootTransactions goesOn v r).map (fun t => t.frame.toList) = bootFrames v := rfl

/-- `boot` with every transaction delivered is the boot sequence, and Receive is recorded (R256). -/
theorem boot_delivered (ch : DriverChoices) (v : BootBytes) {r : BootReplies v} (h : r.delivered) :
    boot ch v r = ⟨initializeSeq v, some .receive, none⟩ := by
  obtain ⟨⟨h1, h2, h3, h4, h5, h6⟩, h7, h8, h9, h10, h11, h12⟩ := h
  simp only [boot, bootTransactions, sendAll_cons _ _ h1, sendAll_cons _ _ h2, sendAll_cons _ _ h3, sendAll_cons _ _ h4,
    sendAll_cons _ _ h5, sendAll_cons _ _ h6, sendAll_cons _ _ h7, sendAll_cons _ _ h8, sendAll_cons _ _ h9,
    sendAll_cons _ _ h10, sendAll_cons _ _ h11, sendAll_cons _ _ h12, sendAll_nil]
  rfl

end Sys2Proof.Machine
end

