-- ==== Sys2Proof/Laws/PerInstr.lean ====
section
/-! SUPPORT. A statement made per instruction: no command takes more than `PW` data bytes, so no frame is longer than
`MAX_FRAME` (30_encoding.md R94, 10_state.md R39). -/

namespace Sys2Proof.Laws.MaxData

/-- `maxdata` is at most 32 under every parameter set of R6 (R94). -/
def Statement (i : Instr) : Prop := ∀ cfg : Config, cfg.wf → i.maxData cfg ≤ 32

/-- A register is at most 5 bytes wide (R22). -/
theorem regWidth_le {cfg : Config} (h : cfg.wf) (a : RegAddr) : regWidth cfg a ≤ 5 := by
  obtain ⟨⟨-, h5⟩, -⟩ := h
  unfold regWidth
  split
  · rename_i r _
    cases r <;> simp [RegName.width, h5]
  · omega

theorem readRegister (a : RegAddr) : Statement (.readRegister a) := fun _ h => (regWidth_le h a).trans (by omega)

theorem writeRegister (a : RegAddr) : Statement (.writeRegister a) := fun _ h => (regWidth_le h a).trans (by omega)

theorem readPayload : Statement .readPayload := fun _ _ => by simp [Instr.maxData, payloadWidth]

theorem writePayload : Statement .writePayload := fun _ _ => by simp [Instr.maxData, payloadWidth]

theorem flushTx : Statement .flushTx := fun _ _ => by simp [Instr.maxData]

theorem flushRx : Statement .flushRx := fun _ _ => by simp [Instr.maxData]

theorem nop : Statement .nop := fun _ _ => by simp [Instr.maxData]

end Sys2Proof.Laws.MaxData
end

