-- ==== Sys2Proof/Tests/Slice0.lean ====
section
/-! SUPPORT. Tests, each about one step or one command byte; expected values are those of 95_test_vectors.md (V.., computed
there under REF from its base state B0), of the encodings of 30_encoding.md R92, or worked out by hand from the rule named.
Then, for each obligation with hypotheses, a state and operands that meet them, clause by clause. -/

namespace Sys2Proof.Tests

open Sys2Proof.Machine

/-! ### Well-formedness: a term that each check takes and one that it refuses (R38, R98, R6, R9) -/

theorem test_wf_readRegister : (Instr.readRegister 0x1D#5).wf = true ∧ (Instr.readRegister 0x08#5).wf = false := by decide
theorem test_wf_writeRegister : (Instr.writeRegister 0x17#5).wf = true ∧ (Instr.writeRegister 0x1E#5).wf = false := by decide
theorem test_wf_frame : frameWf (List.replicate 33 0#8) ∧ ¬ frameWf [] ∧ ¬ frameWf (List.replicate 34 0#8) := by decide
theorem test_wf_config_ref : Config.ref.wf := by decide
theorem test_wf_config_aw : ¬ ({ Config.ref with aw := 2 } : Config).wf ∧ ¬ ({ Config.ref with aw := 6 } : Config).wf := by decide
theorem test_wf_config_depth : ¬ ({ Config.ref with fifoDepth := 0 } : Config).wf := by decide
theorem test_wf_config_nop : ¬ ({ Config.ref with nopOpcode := 0x3F#8 } : Config).wf ∧
    ¬ ({ Config.ref with nopOpcode := 0xE1#8 } : Config).wf := by decide
theorem test_wf_config_bits : ¬ ({ Config.ref with pwrUpBit := 0 } : Config).wf := by decide
theorem test_wf_config_table : ¬ ({ Config.ref with fifoStatusHi := [] } : Config).wf := by decide

/-! ### Words written out bit by bit from the encodings (R92; V81, V83, census) -/

/-- A parameter set other than REF (V24, V34): AW = 3, NOP_OPCODE = 0xFE, no pops. -/
def altCfg : Config := { Config.ref with aw := 3, nopOpcode := 0xFE#8, readPayloadPops := false }

theorem test_decode_readRegister : decode Config.ref 0b00000000#8 = .command (.readRegister 0b00000#5) ∧
    decode Config.ref 0b00001010#8 = .command (.readRegister 0b01010#5) ∧
    decode Config.ref 0b00011101#8 = .command (.readRegister 0b11101#5) := by decide
theorem test_decode_writeRegister : decode Config.ref 0b00100000#8 = .command (.writeRegister 0b00000#5) ∧
    decode Config.ref 0b00110000#8 = .command (.writeRegister 0b10000#5) ∧
    decode Config.ref 0b00110111#8 = .command (.writeRegister 0b10111#5) := by decide
theorem test_decode_readPayload : decode Config.ref 0b01100001#8 = .command .readPayload := by decide
theorem test_decode_writePayload : decode Config.ref 0b10100000#8 = .command .writePayload := by decide
theorem test_decode_flushTx : decode Config.ref 0b11100001#8 = .command .flushTx := by decide
theorem test_decode_flushRx : decode Config.ref 0b11100010#8 = .command .flushRx := by decide
theorem test_decode_nop : decode Config.ref 0b11111111#8 = .command .nop ∧ decode altCfg 0b11111110#8 = .command .nop ∧
    decode altCfg 0b11111111#8 = .illegal 0xFF#8 := by decide
theorem test_decode_illegal : ∀ b ∈ [0x40#8, 0x60#8, 0x62#8, 0xA1#8, 0xA8#8, 0xB0#8, 0xE0#8, 0xE3#8, 0xFE#8],
    decode Config.ref b = .illegal b := by decide
theorem test_decode_reserved : decode Config.ref 0x2B#8 = .reserved 0x0B#5 ∧ decode Config.ref 0x1F#8 = .reserved 0x1F#5 ∧
    decode Config.ref 0x3F#8 = .reserved 0x1F#5 ∧ decode Config.ref 0x09#8 = .reserved 0x09#5 ∧
    decode Config.ref 0x36#8 = .reserved 0x16#5 := by decide
theorem test_decodeTableWord : decodeTableWord 8 0x25 = some (.writeRegister 0x05#5) ∧ decodeTableWord 8 0x50 = none := by
  decide

/-! ### Small states -/

/-- `P(v)` of 95_test_vectors.md section 0. -/
def payload (v : Nat) : List Byte := (List.range 32).map fun k => BitVec.ofNat 8 (v + k)

/-- The base state B0 of 95_test_vectors.md section 0, with the steps to come. -/
def b0 (q : List Stimulus) : State :=
  { State.powerOn Config.ref { RegFile.family with config := 0x03#8, enAa := 0x00#8, setupRetr := 0x2F#8, rfSetup := 0x07#8 }
      .high with stimuli := q }

/-- The state T0 of 95_test_vectors.md section 6, with the steps to come. -/
def t0 (q : List Stimulus) : State :=
  { b0 q with regs := { (b0 []).regs with config := 0x02#8 }, mode := .transmit, ce := .low, txq := [payload 0x01] }

/-- B0 with a frame of the command `i` open, `ds` its data bytes so far (R99). -/
def inFrame (i : Instr) (ds : List Byte) (q : List Stimulus) : State :=
  { b0 q with fs := .data, fidx := ds.length + 1, cmd := some i, dbuf := ds }

/-- B0 with a frame open before its command byte (R99). -/
def opened (q : List Stimulus) : State := { b0 q with fs := .cmd }

/-- A property of the state that one step gives. -/
def nextHas (s : State) (p : State → Bool) : Bool :=
  match step s with
  | .next t => p t
  | .fault _ => false
  | .refused _ => false

/-- The refusal a step ends in. -/
def refusalOf (s : State) : Option Refusal :=
  match step s with
  | .refused r => some r
  | .next _ => none
  | .fault _ => none

/-! ### One step each (the vector named) -/

/-- V2. -/
theorem test_readRegister_address : nextHas (b0 [.frame [0x0A#8, 0#8, 0#8, 0#8, 0#8, 0#8]]) fun t =>
    t.rx == [0x0E#8, 0xE7#8, 0xE7#8, 0xE7#8, 0xE7#8, 0xE7#8] && t.fault == none := by decide
/-- V22. -/
theorem test_readRegister_fifoStatus : nextHas { b0 [.frame [0x17#8, 0#8]] with txq := [payload 1, payload 2, payload 3] } fun t =>
    t.rx == [0x0F#8, 0x21#8] := by decide
/-- V9. -/
theorem test_writeRegister_partial : nextHas (b0 [.frame [0x2A#8, 0x01#8, 0x02#8]]) fun t =>
    t.regs.rxAddrP0 == [0x01#8, 0x02#8, 0xE7#8, 0xE7#8, 0xE7#8] && t.rx.length == 3 && t.rx.head? == some 0x0E#8 := by decide
/-- V15. -/
theorem test_writeRegister_status :
    nextHas { b0 [.frame [0x27#8, 0x20#8]] with rxDr := true, txDs := true, maxRt := true, rxq := [⟨0, payload 1⟩] } fun t =>
    t.rxDr && !t.txDs && t.maxRt && t.rx.head? == some 0x70#8 := by decide
/-- V63. -/
theorem test_writeRegister_config_arms : nextHas { b0 [.frame [0x20#8, 0x02#8]] with txq := [payload 1] } fun t =>
    t.mode == .transmit && t.regs.config == 0x02#8 && t.txArmed := by decide
/-- V87. -/
theorem test_writeRegister_readOnly : nextHas (b0 [.frame [0x37#8, 0#8]]) fun t =>
    t.fault == some (.readOnlyRegister 0x17#5) && t.rx.length == 2 := by decide
/-- V32. -/
theorem test_nop_status :
    nextHas { b0 [.frame [0xFF#8]] with rxDr := true, txDs := true, maxRt := true, rxq := [⟨0, payload 1⟩],
                                        txq := [payload 1, payload 2, payload 3] } fun t => t.rx == [0x71#8] := by decide
/-- V80. -/
theorem test_illegalOpcode : nextHas (b0 [.frame [0x50#8]]) fun t =>
    t.fault == some (.illegalOpcode 0x50#8) && t.rx == [0x0E#8] := by decide
/-- V82. -/
theorem test_reservedRegister : nextHas (b0 [.frame [0x08#8, 0#8]]) fun t =>
    t.fault == some (.reservedRegister 0x08#5) && t.rx == [0x0E#8] := by decide
/-- V43: the bytes given lead the entry, which has 32. -/
theorem test_writePayload_short : nextHas (b0 [.frame [0xA0#8, 0xAA#8, 0xBB#8]]) fun t =>
    t.txq.length == 1 && t.txq.all fun e => e.length == 32 && e.take 2 == [0xAA#8, 0xBB#8] := by decide
/-- V42. -/
theorem test_writePayload_overflow :
    nextHas { b0 [.frame (0xA0#8 :: payload 0xC1)] with txq := [payload 1, payload 0x41, payload 0x81] } fun t =>
    t.fault == some .txFifoOverflow && t.txq.length == 3 && t.rx.head? == some 0x0F#8 && t.rx.length == 33 := by decide
/-- V46, its first read. -/
theorem test_readPayload_full : nextHas { b0 [.frame (0x61#8 :: List.replicate 32 0#8)] with
      rxq := [⟨0, payload 0x01⟩, ⟨0, payload 0x41⟩], rxDr := true } fun t =>
    t.rx == 0x40#8 :: payload 0x01 && t.rxq == [⟨0, payload 0x41⟩] && t.rxDr := by decide
/-- V90. -/
theorem test_readPayload_overlong : nextHas { inFrame .readPayload (List.replicate 32 0#8) [.byte 0#8] with rdl := none } fun t =>
    t.fault == some (.lengthMismatch .readPayload 32) && t.rx == [] := by decide
/-- V51. -/
theorem test_flushTx : nextHas { t0 [.frame [0xE1#8]] with txq := [payload 1, payload 2], txArmed := true, maxRt := true } fun t =>
    t.rx == [0x1E#8] && t.txq == [] && !t.txArmed && t.maxRt := by decide
/-- V54. -/
theorem test_flushTx_overlong : nextHas (b0 [.frame [0xE1#8, 0#8]]) fun t =>
    t.fault == some (.lengthMismatch .flushTx 0) && t.rx == [0x0E#8] := by decide
/-- V52. -/
theorem test_flushRx : nextHas { b0 [.frame [0xE2#8]] with rxq := [⟨0, payload 1⟩, ⟨0, payload 2⟩], rxDr := true, ce := .low } fun t =>
    t.rx == [0x40#8] && t.rxq == [] && t.rxDr := by decide
/-- V60, its first step. -/
theorem test_ce_arms : nextHas (t0 [.ce .high]) fun t => t.txArmed && t.ce == .high := by decide
/-- V65, its first event. -/
theorem test_evTxDs_rearms : nextHas { t0 [.evTxDs] with txq := [payload 1, payload 2], ce := .high, txArmed := true } fun t =>
    t.txq == [payload 2] && t.txDs && t.txArmed := by decide
/-- V61, its event. -/
theorem test_evMaxRt_keeps : nextHas { t0 [.evMaxRt] with txArmed := true } fun t =>
    t.txq == [payload 1] && t.maxRt && !t.txArmed := by decide
/-- V66, its first event. -/
theorem test_evRx : nextHas (b0 [.evRx (payload 1)]) fun t => t.rxq == [⟨0, payload 1⟩] && t.rxDr := by decide
/-- V67, V71. -/
theorem test_events_not_enabled : refusalOf (t0 [.evRx (payload 1)]) = some .eventNotEnabled ∧
    refusalOf (t0 [.evTxDs]) = some .eventNotEnabled ∧ refusalOf (t0 [.evMaxRt]) = some .eventNotEnabled := by decide
/-- V92, in its composite form. -/
theorem test_empty_frame : nextHas (b0 [.frame []]) fun t => t == b0 [] := by decide
/-- V49: a packet that arrives after byte 0 is not the one read, and is not removed. -/
theorem test_readPayload_late_packet :
    nextHas { inFrame .readPayload [0#8] [.csnRise] with rxq := [⟨0, payload 1⟩] } fun t => t.rxq == [⟨0, payload 1⟩] := by decide
/-- R43 under REF and G17: between frames, PWR_UP 0, mode Transmit, Status 0x0E, FIFO Status 0x11. -/
theorem test_reset : State.reset.mode = .transmit ∧ State.reset.pwrUp = false ∧ State.reset.statusByte = 0x0E#8 ∧
    State.reset.fifoStatusByte = 0x11#8 ∧ State.reset.regs.rfCh = 0x02#8 := by decide
/-- The first instruction after reset: RF_CH written. -/
theorem test_withFetchWord : nextHas (State.reset.withFetchWord 8 0x25) fun t =>
    t.regs.rfCh == 0x00#8 && t.fault == none && t.stimuli == [] && t.rx.length == 2 := by decide

/-! ### The hypotheses of the obligations: a state and operands that meet them, clause by clause -/

/-- The invariant holds of B0 with any steps to come. -/
theorem test_inv_b0 (q : List Stimulus) : Inv (b0 q) where
  cfgWf := test_wf_config_ref
  inv1 := (by decide : Inv1 (b0 []))
  inv2 := (by decide : Inv2 (b0 []))
  inv3 := (by decide : Inv3 (b0 []))
  inv4 := (by decide : Inv4 (b0 []))
  inv5 := ⟨rfl, rfl, rfl, rfl⟩
  inv6 := (by decide : Inv6 (b0 []))
  inv7 := (by decide : Inv7 (b0 []))
  cmdWf := (by decide : InvCmd (b0 []))
  widths := ⟨rfl, rfl⟩
  entries := (by decide : InvEntries (b0 []))
  armed := (by decide : InvArmed (b0 []))

/-- A full payload frame at its last index, with a full TX FIFO. -/
def lastByte (q : List Stimulus) : State :=
  { inFrame .writePayload (payload 1) q with txq := [payload 1, payload 2, payload 3] }

/-- The invariant holds there (R39, R42). -/
theorem test_inv_last_byte (q : List Stimulus) : Inv (lastByte q) where
  cfgWf := test_wf_config_ref
  inv1 := (by decide : Inv1 (lastByte []))
  inv2 := (by decide : Inv2 (lastByte []))
  inv3 := (by decide : Inv3 (lastByte []))
  inv4 := (by decide : Inv4 (lastByte []))
  inv5 := ⟨(by decide : 1 ≤ 33), rfl, rfl⟩
  inv6 := (by decide : Inv6 (lastByte []))
  inv7 := (by decide : Inv7 (lastByte []))
  cmdWf := (by decide : InvCmd (lastByte []))
  widths := ⟨rfl, rfl⟩
  entries := (by decide : InvEntries (lastByte []))
  armed := (by decide : InvArmed (lastByte []))

theorem test_meets_DecodeInvertsEncode : altCfg.wf ∧ (Instr.writeRegister 0x1D#5).wf = true ∧ Instr.nop.wf = true := by decide
theorem test_meets_EncodeInvertsDecode : decode altCfg 0x3D#8 = .command (.writeRegister 0x1D#5) ∧
    decode altCfg 0xFE#8 = .command .nop := by decide
theorem test_meets_config_hypotheses : Config.ref.wf ∧ altCfg.wf := by decide
theorem test_meets_MaxDataValues : Config.ref.wf ∧ catalogued 0x00#5 = true ∧ catalogued 0x1D#5 = true := by decide
theorem test_meets_StepRunsDecodedInstruction :
    CommandByteNext (opened [.byte 0xFF#8]) 0xFF#8 [] ∧ decode Config.ref 0xFF#8 = .command .nop ∧
    DataByteNext (inFrame (.readRegister 0x05#5) [] [.byte 0#8]) 0#8 [] ∧
    (inFrame (.readRegister 0x05#5) [] [.byte 0#8]).cmd = some (.readRegister 0x05#5) ∧
    RiseNext (inFrame .flushTx [] [.csnRise]) [] ∧ (inFrame .flushTx [] [.csnRise]).cmd = some .flushTx ∧
    FrameNext (b0 [.frame [0xFF#8]]) 0xFF#8 [] [] := by decide
theorem test_meets_TableWordIsTheNextInstruction : decode (b0 []).cfg (BitVec.ofNat 8 0x61) = .command .readPayload := by decide
theorem test_meets_FrameIsItsMicroSteps (s : State) (hs : s ∈ [b0 [.frame []], b0 [.frame [0x05#8, 0#8]], b0 [.frame [0x50#8]]]) :
    s.fault = none ∧ s.fs = .idle ∧ (∃ tx, s.stimuli = [.frame tx]) ∧ ∃ t, step s = .next t := by
  simp only [List.mem_cons, List.not_mem_nil, or_false] at hs
  rcases hs with rfl | rfl | rfl <;> exact ⟨rfl, rfl, ⟨_, rfl⟩, ⟨_, rfl⟩⟩
theorem test_meets_IllegalOpcodeFaults : 0x40 ≤ (0x40#8).toNat ∧ (0x40#8) ≠ Config.ref.nopOpcode ∧
    0x40 ≤ (0xFE#8).toNat ∧ (0xFE#8) ≠ Config.ref.nopOpcode ∧ CommandByteNext (opened [.byte 0x40#8]) 0x40#8 [] ∧
    FrameNext (b0 [.frame [0xFE#8, 0#8]]) 0xFE#8 [0#8] [] := by decide
theorem test_meets_ReservedRegisterFaults : (0x3F#8).toNat < 0x40 ∧ catalogued ((0x3F#8).extractLsb' 0 5) = false ∧
    (0x08#8).toNat < 0x40 ∧ catalogued ((0x08#8).extractLsb' 0 5) = false ∧
    CommandByteNext (opened [.byte 0x3F#8]) 0x3F#8 [] ∧ FrameNext (b0 [.frame [0x08#8]]) 0x08#8 [] [] := by decide
theorem test_meets_OverlongDataFaults :
    DataByteNext (inFrame (.readRegister 0x05#5) [0#8] [.byte 0#8]) 0#8 [] ∧
    regWidth Config.ref 0x05#5 ≤ (inFrame (.readRegister 0x05#5) [0#8] [.byte 0#8]).fidx - 1 ∧
    DataByteNext (inFrame .writePayload (payload 1) [.byte 0#8]) 0#8 [] ∧
    32 ≤ (inFrame .writePayload (payload 1) [.byte 0#8]).fidx - 1 ∧ DataByteNext (inFrame .nop [] [.byte 0#8]) 0#8 [] := by decide
theorem test_meets_WriteFifoStatusFaults : RiseNext (inFrame (.writeRegister 0x17#5) [0#8] [.csnRise]) [] ∧
    1 ≤ (inFrame (.writeRegister 0x17#5) [0#8] [.csnRise]).dbuf.length ∧
    RiseNext (inFrame (.writeRegister 0x17#5) [] [.csnRise]) [] ∧
    (inFrame (.writeRegister 0x17#5) [] [.csnRise]).dbuf = [] := by decide
theorem test_meets_FaultIsFinal : ({ b0 [] with fault := some .txFifoOverflow } : State).fault = some .txFifoOverflow := rfl
/-- One state for each row of the table of faults. -/
theorem test_meets_FaultTableIsComplete :
    Raises (opened [.byte 0x40#8]) (.illegalOpcode 0x40#8) ∧ Raises (opened [.byte 0x3F#8]) (.reservedRegister 0x1F#5) ∧
    Raises (inFrame .nop [] [.byte 0#8]) (.lengthMismatch .nop 0) ∧
    Raises (inFrame (.writeRegister 0x17#5) [0#8] [.csnRise]) (.readOnlyRegister 0x17#5) ∧
    Raises { inFrame .writePayload [0#8] [.csnRise] with txq := [payload 1, payload 2, payload 3] } .txFifoOverflow :=
  ⟨.f1 0x40#8 [] (by decide) (by decide) (by decide), .f2 0x3F#8 [] (by decide) (by decide) (by decide),
    .f3 0#8 [] .nop (by decide) rfl (by decide), .f4 [] (by decide) rfl (by decide),
    .f5 [] (by decide) rfl (by decide) (by decide)⟩
theorem test_meets_FaultingStepChangesNothingElse :
    (∃ t, step (opened [.byte 0x40#8]) = .next t ∧ t.fault = some (.illegalOpcode 0x40#8)) ∧
    (∃ t, step (inFrame .nop [] [.byte 0#8]) = .next t ∧ t.fault = some (.lengthMismatch .nop 0)) ∧
    (∃ t, step (inFrame (.writeRegister 0x17#5) [0#8] [.csnRise]) = .next t ∧ t.fault = some (.readOnlyRegister 0x17#5)) :=
  ⟨⟨_, rfl, rfl⟩, ⟨_, rfl, rfl⟩, ⟨_, rfl, rfl⟩⟩
theorem test_meets_UnframedMovesHaveNoStep : (opened [.csnFall]).fault = none ∧ (opened [.csnFall]).fs ≠ .idle ∧
    (opened [.frame []]).fs ≠ .idle ∧ (b0 [.byte 0#8]).fs = .idle ∧ (b0 [.csnRise]).fault = none := by decide
theorem test_meets_FirstResponseIsStatus : CommandByteNext (opened [.byte 0x50#8]) 0x50#8 [] ∧
    FrameNext (b0 [.frame [0x50#8]]) 0x50#8 [] [] := by decide
theorem test_meets_ResponseIgnoresItsOwnByte :
    (∃ t, step { inFrame (.readRegister 0x05#5) [] [] with stimuli := [.byte 0#8] } = .next t ∧ t.fault = none) ∧
    (∃ t, step { inFrame (.readRegister 0x05#5) [] [] with stimuli := [.byte 0xFF#8] } = .next t) := ⟨⟨_, rfl, rfl⟩, ⟨_, rfl⟩⟩
theorem test_meets_StatusByteBits : (b0 []).rxq = [] ∧
    ({ b0 [] with rxq := [⟨0, payload 1⟩] } : State).rxq = ⟨0, payload 1⟩ :: [] := ⟨rfl, rfl⟩
theorem test_meets_FifoStatusByteBits : Inv (b0 []) ∧ (b0 []).cfg = Config.ref := ⟨test_inv_b0 [], rfl⟩
theorem test_meets_ReadRegisterFrameReturnsContents (n : Nat) (hn : n = 0 ∨ n = 5) :
    (b0 []).regs.widths (b0 []).cfg.aw ∧ catalogued 0x0A#5 = true ∧ (List.replicate n 0#8).length ≤ regWidth (b0 []).cfg 0x0A#5 ∧
    FrameNext (b0 [.frame (0x0A#8 :: List.replicate n 0#8)]) 0x0A#8 (List.replicate n 0#8) [] := by
  rcases hn with rfl | rfl <;> decide
theorem test_meets_ReadRegisterByteByByte :
    DataByteNext (inFrame (.readRegister 0x0A#5) [0#8, 0#8, 0#8, 0#8] [.byte 0#8]) 0#8 [] ∧
    (inFrame (.readRegister 0x0A#5) [0#8, 0#8, 0#8, 0#8] [.byte 0#8]).fidx - 1 < regWidth (b0 []).cfg 0x0A#5 ∧
    RiseNext (inFrame (.readRegister 0x0A#5) [0#8] [.csnRise]) [] ∧ (b0 []).regs.widths (b0 []).cfg.aw ∧
    catalogued 0x0A#5 = true := by decide
theorem test_meets_ComposedRegisterReads : FrameNext (b0 [.frame [0x07#8, 0#8]]) 0x07#8 [0#8] [] := by decide
theorem test_meets_WriteConfigCommit : RiseNext (inFrame (.writeRegister 0x00#5) [0x02#8] [.csnRise]) [] ∧
    (inFrame (.writeRegister 0x00#5) [0x02#8] [.csnRise]).dbuf = 0x02#8 :: [] := by decide
theorem test_meets_WriteStatusCommit : RiseNext (inFrame (.writeRegister 0x07#5) [0x70#8] [.csnRise]) [] ∧
    (inFrame (.writeRegister 0x07#5) [0x70#8] [.csnRise]).dbuf = 0x70#8 :: [] := by decide
theorem test_meets_WriteAddressCommit (n : Nat) (hn : n = 1 ∨ n = 5) :
    RiseNext (inFrame (.writeRegister 0x10#5) (List.replicate n 0xC2#8) [.csnRise]) [] ∧ (b0 []).regs.widths (b0 []).cfg.aw ∧
    1 ≤ (List.replicate n 0xC2#8).length ∧ (List.replicate n 0xC2#8).length ≤ (b0 []).cfg.aw := by
  rcases hn with rfl | rfl <;> decide
theorem test_meets_WritePlainCommit : RiseNext (inFrame (.writeRegister 0x05#5) [0x4C#8] [.csnRise]) [] ∧
    (inFrame (.writeRegister 0x05#5) [0x4C#8] [.csnRise]).dbuf = [0x4C#8] := by decide
theorem test_meets_WriteRegisterFrameReadsBack : (b0 []).regs.widths (b0 []).cfg.aw ∧ regAt 0x10#5 = some .txAddr ∧
    [0xC2#8, 0xC2#8, 0xC2#8, 0xC2#8, 0xC2#8].length ≤ regWidth (b0 []).cfg 0x10#5 ∧
    FrameNext (b0 [.frame [0x30#8, 0xC2#8, 0xC2#8, 0xC2#8, 0xC2#8, 0xC2#8]]) 0x30#8 [0xC2#8, 0xC2#8, 0xC2#8, 0xC2#8, 0xC2#8] [] ∧
    regAt 0x17#5 = some .fifoStatus ∧ FrameNext (b0 [.frame [0x37#8]]) 0x37#8 [] [] := by decide
theorem test_meets_NopReturnsStatusOnly : FrameNext (b0 [.frame [0xFF#8]]) 0xFF#8 [] [] ∧
    RiseNext (inFrame .nop [] [.csnRise]) [] := by decide
theorem test_meets_FlushTxEmptiesTxFifo : FrameNext (t0 [.frame [0xE1#8]]) 0xE1#8 [] [] ∧
    FrameNext (b0 [.frame [0xE1#8]]) 0xE1#8 [] [] ∧ (b0 []).txq = [] ∧ (b0 []).txArmed = false ∧
    RiseNext (inFrame .flushTx [] [.csnRise]) [] := by decide
theorem test_meets_FlushRxEmptiesRxFifo : FrameNext (b0 [.frame [0xE2#8]]) 0xE2#8 [] [] ∧
    RiseNext (inFrame .flushRx [] [.csnRise]) [] := by decide
theorem test_meets_ReadPayloadFrame :
    FrameNext { b0 [.frame [0x61#8, 0#8]] with rxq := [⟨0, payload 1⟩] } 0x61#8 [0#8] [] ∧ (payload 1).length = 32 ∧
    FrameNext (b0 [.frame (0x61#8 :: List.replicate 32 0#8)]) 0x61#8 (List.replicate 32 0#8) [] ∧ (b0 []).rxq = [] ∧
    FrameNext (b0 [.frame [0x61#8]]) 0x61#8 [] [] := by decide
theorem test_meets_ReadPayloadByteByByte : CommandByteNext (opened [.byte 0x61#8]) 0x61#8 [] ∧
    DataByteNext { inFrame .readPayload (List.replicate 31 0#8) [.byte 0#8] with rdl := some ⟨0, payload 1⟩ } 0#8 [] ∧
    (inFrame .readPayload (List.replicate 31 0#8) [.byte 0#8]).fidx - 1 < 32 ∧
    (inFrame .readPayload (List.replicate 31 0#8) [.byte 0#8]).rdl = none ∧ (payload 1).length = 32 ∧
    RiseNext (inFrame .readPayload [0#8] [.csnRise]) [] := by decide
theorem test_meets_WritePayloadAppendsOrOverflows :
    FrameNext (b0 [.frame (0xA0#8 :: payload 1)]) 0xA0#8 (payload 1) [] ∧ (payload 1).length ≤ 32 ∧
    (b0 []).txq.length ≠ (b0 []).cfg.fifoDepth ∧ FrameNext (b0 [.frame [0xA0#8]]) 0xA0#8 [] [] ∧
    RiseNext (inFrame .writePayload [0xAA#8] [.csnRise]) [] ∧ RiseNext (inFrame .writePayload [] [.csnRise]) [] ∧
    RiseNext { inFrame .writePayload [0xAA#8] [.csnRise] with txq := [payload 1, payload 2, payload 3] } [] ∧
    [payload 1, payload 2, payload 3].length = (b0 []).cfg.fifoDepth := by decide
theorem test_meets_ReadsAndNopFrame : (∃ t, exec .nop (b0 [.frame [0xFF#8]]) = .next t) ∧
    ∃ t, exec (.readRegister 0x05#5) (b0 [.frame [0x05#8, 0#8]]) = .next t := ⟨⟨_, rfl⟩, ⟨_, rfl⟩⟩
theorem test_meets_WriteRegisterFrameRule : ∃ t, exec (.writeRegister 0x05#5) (b0 [.frame [0x25#8, 0#8]]) = .next t := ⟨_, rfl⟩
theorem test_meets_FifoCommandsFrame : (∃ t, exec .flushTx (b0 [.frame [0xE1#8]]) = .next t) ∧
    (∃ t, exec .flushRx (b0 [.frame [0xE2#8]]) = .next t) ∧ (∃ t, exec .readPayload (b0 [.frame [0x61#8, 0#8]]) = .next t) ∧
    ∃ t, exec .writePayload (b0 [.frame [0xA0#8, 0#8]]) = .next t := ⟨⟨_, rfl⟩, ⟨_, rfl⟩, ⟨_, rfl⟩, ⟨_, rfl⟩⟩
theorem test_meets_NothingCommitsBeforeRise : (∃ t, step (b0 [.csnFall]) = .next t) ∧
    ∃ t, step (inFrame (.writeRegister 0x05#5) [] [.byte 0x4C#8]) = .next t := ⟨⟨_, rfl⟩, ⟨_, rfl⟩⟩
theorem test_meets_EmptyFrameChangesNothing : Inv (b0 [.csnFall, .csnRise]) ∧ (b0 [.csnFall, .csnRise]).fault = none ∧
    (b0 [.csnFall, .csnRise]).fs = .idle := ⟨test_inv_b0 _, rfl, rfl⟩
theorem test_meets_ControlLineStep : (b0 [.ce .low]).fault = none ∧ Inv (b0 [.ce .high]) ∧ (b0 [.ce .high]).ce = .high :=
  ⟨rfl, test_inv_b0 _, rfl⟩
theorem test_meets_ArmingRule : ({ t0 [] with ce := .high } : State).mode = .transmit ∧ ({ t0 [] with ce := .high } : State).ce = .high ∧
    ({ t0 [] with ce := .high } : State).regs.config.getLsbD (t0 []).cfg.pwrUpBit = true ∧ (t0 []).txq ≠ [] ∧
    ¬ (b0 []).mode = .transmit := by decide
theorem test_meets_TransmissionOutcomeEvents : ({ t0 [.evTxDs] with txArmed := true } : State).fault = none ∧
    ({ t0 [.evMaxRt] with txArmed := true } : State).txArmed = true ∧ (t0 [.evTxDs]).txArmed = false := by decide
theorem test_meets_PacketReceivedEvent : (b0 [.evRx (payload 1)]).fault = none ∧ (payload 1).length = 32 ∧
    (b0 []).mode = .receive ∧ (b0 []).ce = .high ∧ (b0 []).pwrUp = true ∧ (b0 []).rxq.length < (b0 []).cfg.fifoDepth ∧
    ¬ (t0 [.evRx (payload 1)]).mode = .receive := by decide
theorem test_meets_EventsFrame : (∃ t, step (b0 [.evRx (payload 1)]) = .next t) ∧
    (∃ t, step { t0 [.evTxDs] with txArmed := true } = .next t) ∧ ({ t0 [.evTxDs] with txArmed := true } : State).txArmed = true :=
  ⟨⟨_, rfl⟩, ⟨_, rfl⟩, rfl⟩
theorem test_meets_PoweredDownIsDeaf : State.reset.pwrUp = false ∧ State.reset.fault = none ∧
    ({ State.reset with txArmed := true } : State).txArmed = true := by decide
theorem test_meets_ModeFollowsConfigWritesOnly :
    (∃ t, step (b0 [.frame [0x20#8, 0x02#8]]) = .next t ∧ t.mode ≠ (b0 [.frame [0x20#8, 0x02#8]]).mode ∧ t.fault = none) ∧
    (∃ t, step (inFrame (.writeRegister 0x00#5) [0x02#8] [.csnRise]) = .next t) ∧
    (inFrame (.writeRegister 0x00#5) [0x02#8] [.csnRise]).dbuf = 0x02#8 :: [] := ⟨⟨_, rfl, by decide, rfl⟩, ⟨_, rfl⟩, rfl⟩
theorem test_meets_FlagsSetByEventsClearedByStatusWrites :
    (∃ t, step (b0 [.evRx (payload 1)]) = .next t ∧ t.rxDr = true) ∧
    ∃ t, step { b0 [.frame [0x27#8, 0x40#8]] with rxDr := true } = .next t ∧ t.rxDr = false := ⟨⟨_, rfl, rfl⟩, ⟨_, rfl, rfl⟩⟩
theorem test_meets_ArmedUntilOutcomeOrFlush : (∃ t, step (t0 [.ce .high]) = .next t ∧ t.txArmed = true) ∧
    ∃ t, step { t0 [.frame [0xE1#8]] with txArmed := true } = .next t ∧ t.txArmed = false := ⟨⟨_, rfl, rfl⟩, ⟨_, rfl, rfl⟩⟩
theorem test_meets_RegistersChangeOnlyByTheirWrites : ∃ t, step (b0 [.frame [0x25#8, 0x4C#8]]) = .next t ∧
    t.readReg .rfCh ≠ (b0 []).readReg .rfCh := ⟨_, rfl, by decide⟩
theorem test_meets_PlainRegistersAffectNothing :
    (∀ q, State.blankPlain (b0 q) = State.blankPlain { b0 q with regs := { (b0 []).regs with rfCh := 0x4C#8 } }) ∧
    ¬ ReadsPlainNext (b0 [.csnFall]) ∧ ReadsPlainNext (b0 [.frame [0x05#8, 0#8]]) := by
  refine ⟨fun _ => rfl, ?_, ⟨0x05#5, .rfCh, rfl, rfl, .inr ⟨_, _, _, rfl, by decide, by decide⟩⟩⟩
  rintro ⟨_, _, -, -, ⟨_, _, h, -⟩ | ⟨_, _, _, h, -⟩⟩ <;> cases h
theorem test_meets_InvariantAtReset : altCfg.wf ∧
    RegFile.widths altCfg.aw { RegFile.family with rxAddrP0 := [0#8, 0#8, 0#8], txAddr := [0#8, 0#8, 0#8] } := by decide
theorem test_meets_StepKeepsInvariant : (Inv (b0 [.csnFall]) ∧ ∃ t, step (b0 [.csnFall]) = .next t) ∧
    (Inv (lastByte [.byte 0#8]) ∧
      ∃ t, step (lastByte [.byte 0#8]) = .next t) :=
  ⟨⟨test_inv_b0 _, ⟨_, rfl⟩⟩, ⟨test_inv_last_byte _, ⟨_, rfl⟩⟩⟩
theorem test_meets_ReachableStatesKeepInvariant : Config.ref.wf ∧ RegFile.family.widths Config.ref.aw ∧
    ∃ t, Host.Core.run Sys2Proof.core 2
      ({ State.powerOn Config.ref RegFile.family .low with stimuli := [.csnFall, .csnRise] } : State) = .next t :=
  ⟨by decide, by decide, ⟨_, rfl⟩⟩
theorem test_meets_FrameIndexCounts : ∃ t,
    step (lastByte [.byte 0#8]) = .next t ∧
    (lastByte [.byte 0#8]).fidx = 33 ∧ t.fault = some (.lengthMismatch .writePayload 32) :=
  ⟨_, rfl, rfl, rfl⟩
theorem test_meets_PowerOnState : Config.ref.wf ∧ State.reset = State.powerOn Config.ref RegFile.family .low := ⟨by decide, rfl⟩
theorem test_meets_ReceiveToTransmit : Inv (b0 (toTransmitSeq .receive 0x02#8 ++ [])) ∧
    (0x02#8).getLsbD (b0 []).cfg.primRxBit = false ∧ (0x02#8).getLsbD (b0 []).cfg.pwrUpBit = true :=
  ⟨test_inv_b0 _, by decide, by decide⟩
theorem test_meets_TransmitToReceive : Inv (b0 (toReceiveSeq .transmit 0x03#8 ++ [])) ∧
    (0x03#8).getLsbD (b0 []).cfg.primRxBit = true ∧ (0x03#8).getLsbD (b0 []).cfg.pwrUpBit = true :=
  ⟨test_inv_b0 _, by decide, by decide⟩

/-- The boot bytes of PR7. -/
def bootBytes : BootBytes where
  config := 0x03#8
  setupAw := 0x03#8
  setupRetr := 0x2F#8
  rxAddrP0 := List.replicate 5 0xE7#8
  txAddr := List.replicate 5 0xE7#8
  rfCh := 0x02#8
  rfSetup := 0x07#8
  dynpd := 0#8
  feature := 0#8
  enAa := 0#8

theorem test_meets_BootState : Inv (b0 (initializeSeq bootBytes ++ [])) ∧ bootBytes.wf (b0 []).cfg := ⟨test_inv_b0 _, by decide⟩

/-! ### The driver's operations (PR3, PR5, PR6, PR7; R247, R254, R255) -/

/-- A driver that sends nothing more and raises nothing after a failed transaction, but what the source says. -/
def quiet : DriverChoices := ⟨false, false, false, .replicate 3 false, false, false, .replicate 12 false, false⟩

/-- A delivered transaction: the response bytes. -/
abbrev got {n : Nat} (rx : Vector Byte n) : Transport n := .delivered rx

/-- Every transaction of PR3's `transmit`. -/
def txReplies : TransmitReplies where
  load := got (frameOf 0x0E#8 (.replicate 32 0#8))
  toTx := got #v[0x0E#8, 0#8]
  poll := got #v[0x1E#8]
  clear := got #v[0x1E#8, 0#8]
  flush := got #v[0x0E#8]
  toRx := got #v[0x0E#8, 0#8]

/-- Every transaction of PR6's `receive`. -/
def rxReplies : ReceiveReplies where
  reset := got #v[0x40#8, 0#8]
  toRx := got #v[0x0E#8, 0#8]
  probe := got #v[0x00#8, 0x10#8]
  payload := got (frameOf 0x00#8 (bytesOf (payload 1)))
  cleanup := ⟨got #v[0x0E#8], got #v[0x0E#8, 0#8], got #v[0x0E#8, 0#8]⟩

/-- Every transaction of PR7's boot delivered. -/
def bootReplies : BootReplies bootBytes :=
  ⟨got #v[0#8, 0#8], got #v[0#8, 0#8], got #v[0#8, 0#8], got (.replicate 6 0#8), got (.replicate 6 0#8), got #v[0#8, 0#8],
    got #v[0#8, 0#8], got #v[0#8, 0#8], got #v[0#8, 0#8], got #v[0#8, 0#8], got #v[0#8, 0#8], got #v[0x0E#8]⟩

theorem test_pad32_keeps_32 : (pad32 (payload 1)).toList = payload 1 := pad32_of_length rfl

theorem test_load_frame : (writePayloadFrame (payload 1)).toList = 0xA0#8 :: payload 1 :=
  congrArg (List.cons 0xA0#8) test_pad32_keeps_32

/-- The host reads the response of the frame it sent: a read of FIFO_STATUS in B0, `[17 00] -> [0E 11]` (R240, R78). -/
theorem test_hostReads : nextHas (b0 [.frame rxHasDataFrame.toList]) fun t => hostReads 2 t == some #v[0x0E#8, 0x11#8] := by
  decide

/-- Zero bytes are refused, a failure carries its code, and no byte comes with an error (R240). -/
theorem test_transact_errors : transactError (got (#v[] : Vector Byte 0)) = some .invalidArgument ∧
    transactError (.failed 7 none : Transport 2) = some (.busTransportFailure 7) ∧
    transact #v[0x05#8, 0#8] (.failed 7 (some 0)) = [.csnFall, .csnRise] := by decide

theorem test_transmit_maxRt : transmit Config.ref quiet .receive (payload 1) 0x02#8 0x03#8 txReplies =
    ⟨[.ce .low, .frame (0xA0#8 :: payload 1), .ce .low, .frame [0x20#8, 0x02#8], .ce .low, .ce .high, .ce .low,
        .frame [0xFF#8], .frame [0x27#8, 0x10#8], .frame [0xE1#8], .ce .low, .frame [0x20#8, 0x03#8], .ce .high],
      .receive, .maxRetransmitsExceeded⟩ := by
  rw [transmit_delivered Config.ref quiet .receive 0x02#8 0x03#8 (s := 0x1E#8) (by decide) rfl rfl rfl rfl rfl rfl,
    test_load_frame]
  rfl

/-- Step 3 failing stops `transmit`: the line stays low and the copy stays Receive. -/
theorem test_transmit_stops_at_step_3 :
    transmit Config.ref quiet .receive (payload 1) 0x02#8 0x03#8 { txReplies with toTx := .failed 0 (some 1) } =
    ⟨[.ce .low, .frame (0xA0#8 :: payload 1), .ce .low, .csnFall, .byte 0x20#8, .csnRise], .receive,
      .error .modeTransitionFailure⟩ := by
  rw [← test_load_frame]
  rfl

theorem test_receive_payload : receive quiet .receive 0x03#8 (Vector.replicate 32 0#8) rxReplies =
    ⟨[.frame [0x27#8, 0x70#8], .frame [0x17#8, 0x00#8], .ce .low, .frame (0x61#8 :: List.replicate 32 0#8), .ce .high, .ce .low,
        .frame [0xE2#8], .frame [0x27#8, 0x40#8], .frame [0x27#8, 0x70#8], .ce .high],
      .receive, .payload (bytesOf (payload 1))⟩ := by decide

/-- Step 5 failing: the error is returned, and step 7 still puts the block into Receive (R254, R285). -/
theorem test_transmit_poll_failure :
    transmit Config.ref quiet .transmit (payload 1) 0x02#8 0x03#8 { txReplies with poll := .busy } =
    ⟨[.ce .low, .frame (0xA0#8 :: payload 1), .ce .high, .ce .low, .ce .low, .frame [0x20#8, 0x03#8], .ce .high], .receive,
      .error .busTimeout⟩ := by
  rw [← test_load_frame]
  rfl

/-- Step 1 failing: `to_receive` still comes, and the failure is returned (R285). -/
theorem test_receive_reset_failure :
    receive quiet .transmit 0x03#8 (Vector.replicate 32 0#8) { rxReplies with reset := .busy } =
    ⟨[.ce .low, .frame [0x20#8, 0x03#8], .ce .high], .receive, .failure .busTimeout⟩ := by decide

/-- Step 5: a read cut after two bytes; the control line is not raised by this driver, and the bare cleanup follows. -/
theorem test_receive_read_failure :
    receive quiet .receive 0x03#8 (Vector.replicate 32 0#8) { rxReplies with payload := .failed 7 (some 2) } =
    ⟨[.frame [0x27#8, 0x70#8], .frame [0x17#8, 0x00#8], .ce .low, .csnFall, .byte 0x61#8, .byte 0#8, .csnRise,
        .frame [0xE2#8], .frame [0x27#8, 0x40#8], .frame [0x27#8, 0x70#8]],
      .receive, .failure (.busTransportFailure 7)⟩ := by decide

/-- A driver may go on after a failed flush and stop after a failed flag clear (R252, log 21). -/
theorem test_cleanup_goes_on_once :
    cleanup { quiet with cleanupGoesOn := #v[true, false, false] } ⟨.busy, .failed 7 none, got #v[0x0E#8, 0#8]⟩ =
      ⟨[], some .busTimeout⟩ ∧
    cleanup { quiet with cleanupGoesOn := #v[true, false, false] } ⟨.busy, got #v[0x0E#8, 0#8], got #v[0x0E#8, 0#8]⟩ =
      ⟨[.frame [0x27#8, 0x40#8], .frame [0x27#8, 0x70#8]], some .busTimeout⟩ := by decide

/-- A transmission whose step 3 fails and a reception whose read of FIFO_STATUS fails, among events of the radio link,
one of them inside a delivered frame (R74). -/
theorem test_meets_RecordedModeIsTheBlocksMode :
    (isTransmitConfig (b0 []).cfg 0x02#8 ∧ isReceiveConfig (b0 []).cfg 0x03#8 ∧ bootBytes.wf (b0 []).cfg) ∧
    (∃ t, Interleaves (toTransmit (b0 []).mode 0x02#8 (got #v[0x0E#8, 0#8])).steps
        [.evRx (payload 1), .ce .low, .frame [0x20#8, 0x02#8], .ce .low] ∧
      Host.Core.run Sys2Proof.core 4 (b0 [.evRx (payload 1), .ce .low, .frame [0x20#8, 0x02#8], .ce .low]) = .next t ∧
      t.fault = none) ∧
    (∃ t, Interleaves (toReceive (t0 []).mode 0x03#8 (.failed 0 (some 1))).steps [.ce .low, .csnFall, .byte 0x20#8, .csnRise] ∧
      Host.Core.run Sys2Proof.core 4 (t0 [.ce .low, .csnFall, .byte 0x20#8, .csnRise]) = .next t ∧ t.fault = none) ∧
    (∃ t, Host.Core.run Sys2Proof.core 6
        (b0 [.ce .low, .frame (0xA0#8 :: payload 1), .ce .low, .csnFall, .byte 0x20#8, .csnRise]) = .next t ∧ t.fault = none) ∧
    (∃ t, Interleaves (receive quiet (b0 []).mode 0x03#8 (Vector.replicate 32 0#8) { rxReplies with probe := .busy }).steps
        [.csnFall, .byte 0x27#8, .evRx (payload 1), .byte 0x70#8, .csnRise, .frame [0xE2#8], .evRx (payload 2),
          .frame [0x27#8, 0x40#8], .frame [0x27#8, 0x70#8]] ∧
      Host.Core.run Sys2Proof.core 9 (b0 [.csnFall, .byte 0x27#8, .evRx (payload 1), .byte 0x70#8, .csnRise, .frame [0xE2#8],
        .evRx (payload 2), .frame [0x27#8, 0x40#8], .frame [0x27#8, 0x70#8]]) = .next t ∧ t.fault = none) ∧
    (∃ t, boot quiet bootBytes bootReplies = ⟨initializeSeq bootBytes, some .receive, none⟩ ∧
      Host.Core.run Sys2Proof.core 14 (b0 (initializeSeq bootBytes)) = .next t ∧ t.fault = none) :=
  ⟨by decide, ⟨_, by decide, rfl, rfl⟩, ⟨_, by decide, rfl, rfl⟩, ⟨_, rfl, rfl⟩, ⟨_, by decide, rfl, rfl⟩,
    ⟨_, by decide, rfl, rfl⟩⟩

end Sys2Proof.Tests
end

/-! PROOF. What the three bus steps of an open frame leave, each said once as an inversion of `step`, and the index `fidx`
along them (10_state.md R39). -/

namespace Sys2Proof.Machine

/-! ### The bus steps of a frame, inverted (30_encoding.md R99) -/

/-- CSN_FALL opens the frame, from between frames only. -/
theorem step_csnFall_next {s t : State} {rest : List Stimulus} (h : step s = .next t)
    (hq : s.stimuli = .csnFall :: rest) : s.fs = .idle ∧ t = (s.taking rest).openFrame := by
  obtain ⟨-, hm⟩ := step_next h
  cases hm with
  | opens rest' hq' hs =>
    obtain rfl : rest' = rest := by simpa [hq] using hq'.symm
    exact ⟨hs, rfl⟩
  | _ => simp_all

/-- BYTE in an open frame: at `fidx = 0` it is read as a command byte, otherwise it is a data byte of the latched command. -/
theorem step_byte_next {s t : State} {b : Byte} {rest : List Stimulus} (h : step s = .next t)
    (hq : s.stimuli = .byte b :: rest) :
    s.fs ≠ .idle ∧
    ((s.fidx = 0 ∧ ∃ r, rejection (decode s.cfg b) = some r ∧ t = rejectByte r (s.taking rest)) ∨
     (s.fidx = 0 ∧ ∃ i, decode s.cfg b = .command i ∧ t = commandByte i (ruleOf i) (s.taking rest)) ∨
     (s.fidx ≠ 0 ∧ ∃ i, s.cmd = some i ∧ t = dataByte i (ruleOf i) b (s.taking rest))) := by
  obtain ⟨-, hm⟩ := step_next h
  cases hm with
  | rejects b' rest' r hq' hs h0 hd =>
    obtain ⟨rfl, rfl⟩ : b' = b ∧ rest' = rest := by simpa [hq] using hq'.symm
    exact ⟨hs, .inl ⟨h0, r, hd, rfl⟩⟩
  | command i b' rest' hq' hs h0 hd =>
    obtain ⟨rfl, rfl⟩ : b' = b ∧ rest' = rest := by simpa [hq] using hq'.symm
    exact ⟨hs, .inr (.inl ⟨h0, i, hd, rfl⟩)⟩
  | data i b' rest' hq' hs h0 hc =>
    obtain ⟨rfl, rfl⟩ : b' = b ∧ rest' = rest := by simpa [hq] using hq'.symm
    exact ⟨hs, .inr (.inr ⟨h0, i, hc, rfl⟩)⟩
  | _ => simp_all

/-- CSN_RISE closes the frame: with the commit of the latched command, or with nothing to commit (R102). -/
theorem step_csnRise_next {s t : State} {rest : List Stimulus} (h : step s = .next t)
    (hq : s.stimuli = .csnRise :: rest) :
    s.fs ≠ .idle ∧
    ((∃ i, s.cmd = some i ∧ t = riseStep (ruleOf i) (s.taking rest)) ∨
     (s.cmd = none ∧ t = (s.taking rest).idleFrame.arm)) := by
  obtain ⟨-, hm⟩ := step_next h
  cases hm with
  | rises i rest' hq' hs hc =>
    obtain rfl : rest' = rest := by simpa [hq] using hq'.symm
    exact ⟨hs, .inl ⟨i, hc, rfl⟩⟩
  | risesEmpty rest' hq' hs hc =>
    obtain rfl : rest' = rest := by simpa [hq] using hq'.symm
    exact ⟨hs, .inr ⟨hc, rfl⟩⟩
  | _ => simp_all

/-! ### The index along each piece of a frame -/

theorem commandByte_fidx (i : Instr) (s : State) : (commandByte i (ruleOf i) s).fidx = s.fidx + 1 := by
  obtain ⟨r, hr, -⟩ := commandByte_eq i s
  rw [hr]

@[simp] theorem rejectByte_fault (r : Fault) (s : State) : (rejectByte r s).fault = some r := rfl

/-- A data byte that the length check lets through is counted. -/
theorem dataByte_fidx_of_fault_none {i : Instr} {b : Byte} {s : State} (h : (dataByte i (ruleOf i) b s).fault = none) :
    (dataByte i (ruleOf i) b s).fidx = s.fidx + 1 := by
  rcases dataByte_cases i b s with ⟨-, hd⟩ | ⟨-, n, hd⟩ <;> rw [hd] at h ⊢
  simp at h

/-- A closing edge whose commit raises no fault leaves the index at 0. -/
theorem riseStep_fidx_of_fault_none {i : Instr} {s : State} (hf : s.fault = none)
    (h : (riseStep (ruleOf i) s).fault = none) : (riseStep (ruleOf i) s).fidx = 0 := by
  rcases riseStep_cases i s hf with ⟨-, hr⟩ | ⟨-, -, hr⟩ | ⟨-, -, -, hr⟩ <;> rw [hr] at h ⊢
  · simp
  · simp at h
  · simp at h

/-! ### The bound -/

/-- No command takes more than `PW` data bytes (30_encoding.md R94). -/
theorem maxData_le_payloadWidth {cfg : Config} (h : cfg.wf) (i : Instr) : i.maxData cfg ≤ payloadWidth := by
  cases i with
  | readRegister a => exact Laws.MaxData.readRegister a cfg h
  | writeRegister a => exact Laws.MaxData.writeRegister a cfg h
  | readPayload => exact Laws.MaxData.readPayload cfg h
  | writePayload => exact Laws.MaxData.writePayload cfg h
  | flushTx => exact Laws.MaxData.flushTx cfg h
  | flushRx => exact Laws.MaxData.flushRx cfg h
  | nop => exact Laws.MaxData.nop cfg h

/-- In the data phase `fidx` counts the command byte and the bytes of `dbuf` (INV5), which are at most `maxdata(cmd)`
(INV6). -/
theorem Inv.fidx_le {s : State} (h : Inv s) : s.fidx ≤ maxFrame := by
  have h5 := h.inv5
  unfold Inv5 at h5
  split at h5
  · simp [h5.1]
  · simp [h5.1]
  · obtain ⟨-, hc, hn⟩ := h5
    obtain ⟨i, hi⟩ := Option.isSome_iff_exists.1 hc
    have hlen : s.dbuf.length ≤ payloadWidth := (h.inv6 i hi).trans (maxData_le_payloadWidth h.cfgWf i)
    simp only [payloadWidth, maxFrame] at hlen ⊢
    omega

/-- A data byte at the end of the longest frame is beyond `maxdata` of every command (R66). -/
theorem dataByte_at_maxFrame {i : Instr} {c : CommandRule} {b : Byte} {s : State} (hw : s.cfg.wf)
    (h : s.fidx = maxFrame) : dataByte i c b s = s.raise (.lengthMismatch i payloadWidth) := by
  have hk : s.fidx - 1 = payloadWidth := by rw [h]; rfl
  rw [dataByte_over (hk ▸ maxData_le_payloadWidth hw i), hk]

/-! ### The index along the steps (10_state.md R39) -/

/-- Every BYTE step that raises no fault adds exactly 1. -/
theorem step_byte_fidx {s t : State} {b : Byte} {rest : List Stimulus} (h : step s = .next t)
    (hq : s.stimuli = .byte b :: rest) (ht : t.fault = none) : t.fidx = s.fidx + 1 := by
  obtain ⟨-, ⟨-, r, -, rfl⟩ | ⟨-, i, -, rfl⟩ | ⟨-, i, -, rfl⟩⟩ := step_byte_next h hq
  · simp at ht
  · exact commandByte_fidx i _
  · exact dataByte_fidx_of_fault_none ht

/-- A 34th byte of a frame faults. -/
theorem step_byte_at_maxFrame {s t : State} {b : Byte} {rest : List Stimulus} (hw : s.cfg.wf) (h : step s = .next t)
    (hq : s.stimuli = .byte b :: rest) (h33 : s.fidx = maxFrame) :
    ∃ i, s.cmd = some i ∧ t.fault = some (.lengthMismatch i payloadWidth) := by
  have hne : s.fidx ≠ 0 := by rw [h33]; decide
  obtain ⟨-, ⟨h0, -⟩ | ⟨h0, -⟩ | ⟨-, i, hc, rfl⟩⟩ := step_byte_next h hq
  · exact absurd h0 hne
  · exact absurd h0 hne
  · refine ⟨i, hc, ?_⟩
    rw [dataByte_at_maxFrame (s := s.taking rest) hw h33]
    rfl

/-- A closing edge that raises no fault returns the index to 0. -/
theorem step_csnRise_fidx {s t : State} {rest : List Stimulus} (h : step s = .next t)
    (hq : s.stimuli = .csnRise :: rest) (ht : t.fault = none) : t.fidx = 0 := by
  obtain ⟨-, ⟨i, -, rfl⟩ | ⟨-, rfl⟩⟩ := step_csnRise_next h hq
  · exact riseStep_fidx_of_fault_none (step_next h).1 ht
  · simp

/-- Settles O55: the bound is INV5 with INV6 and R94; the rest is read off the inversions of the three bus steps. -/
theorem frameIndexCounts : Obligations.FrameIndexCounts := by
  intro s t rest hinv h
  refine ⟨hinv.fidx_le, fun b hq ht => step_byte_fidx h hq ht,
    fun b hq h33 => step_byte_at_maxFrame hinv.cfgWf h hq h33, fun hq => ?_, fun hq ht => step_csnRise_fidx h hq ht⟩
  obtain ⟨-, rfl⟩ := step_csnFall_next h hq
  simp

end Sys2Proof.Machine

/-! PROOF. The bus's rules on data and on time (20_memory.md): the length check (R66), the moves that are not enabled (R77),
and what no step before the closing edge changes (R72). -/

namespace Sys2Proof.Machine

/-! ### The length check (R66) -/

/-- A data byte at or beyond `maxdata(cmd)` sets the fault mark and changes nothing else. -/
theorem exec_overlong {i : Instr} {s : State} {b : Byte} {rest : List Stimulus} (h : DataByteNext s b rest)
    (hk : i.maxData s.cfg ≤ s.fidx - 1) :
    exec i s = .next { s with stimuli := rest, fault := some (.lengthMismatch i (s.fidx - 1)) } := by
  obtain ⟨hf, hs, h0, hq⟩ := h
  rw [exec_data hf hs h0 hq, dataByte_over (s := s.taking rest) hk]
  rfl

/-- Settles O12: `maxdata(cmd)` is the register's width, 32 for the payload commands and 0 for those without a data phase
(30_encoding.md R94), so each clause is `exec_overlong` at its command. -/
theorem overlongDataFaults : Obligations.OverlongDataFaults := by
  intro s b rest h
  exact ⟨fun a hk => ⟨exec_overlong h hk, exec_overlong h hk⟩, fun hk => ⟨exec_overlong h hk, exec_overlong h hk⟩,
    exec_overlong h (Nat.zero_le _), exec_overlong h (Nat.zero_le _), exec_overlong h (Nat.zero_le _)⟩

/-! ### Moves that are not enabled (R77) -/

/-- Settles O17: in each of the four moves `fetch` looks at the phase before anything else of the frame. -/
theorem unframedMovesHaveNoStep : Obligations.UnframedMovesHaveNoStep := by
  intro s b tx rest hf
  refine ⟨fun hs hq => ?csnFall, fun hs hq => ?frame, fun hs hq => ?byte, fun hs hq => ?csnRise⟩
  all_goals simp [step, fetch, hf, hs, hq]

/-! ### What the steps before the closing edge keep (R72) -/

/-- `t` has the parameters, registers, flags, mode, control line, arming and FIFOs of `s`: the two differ at most in the
frame sequencer, the fault mark and the model's own fields. -/
structure KeepsBlock (s t : State) : Prop where
  cfg : t.cfg = s.cfg
  regs : t.regs = s.regs
  rxDr : t.rxDr = s.rxDr
  txDs : t.txDs = s.txDs
  maxRt : t.maxRt = s.maxRt
  mode : t.mode = s.mode
  ce : t.ce = s.ce
  txArmed : t.txArmed = s.txArmed
  txq : t.txq = s.txq
  rxq : t.rxq = s.rxq

/-- The FIFO Status byte depends on the parameters and the FIFOs alone (R29). -/
theorem State.fifoStatusByte_congr {s t : State} (hc : t.cfg = s.cfg) (ht : t.txq = s.txq) (hx : t.rxq = s.rxq) :
    t.fifoStatusByte = s.fifoStatusByte := by
  simp [State.fifoStatusByte, hc, ht, hx]

theorem KeepsBlock.statusByte {s t : State} (h : KeepsBlock s t) : t.statusByte = s.statusByte :=
  State.statusByte_congr h.cfg h.rxDr h.txDs h.maxRt h.txq h.rxq

theorem KeepsBlock.fifoStatusByte {s t : State} (h : KeepsBlock s t) : t.fifoStatusByte = s.fifoStatusByte :=
  State.fifoStatusByte_congr h.cfg h.txq h.rxq

theorem KeepsBlock.x {s t : State} (h : KeepsBlock s t) : t.x = s.x :=
  State.x_congr h.cfg h.regs h.rxDr h.txDs h.maxRt h.txq h.rxq

theorem keepsBlock_openFrame (s : State) (rest : List Stimulus) : KeepsBlock s (s.taking rest).openFrame := by
  constructor <;> rfl

theorem keepsBlock_rejectByte (r : Fault) (s : State) (rest : List Stimulus) :
    KeepsBlock s (rejectByte r (s.taking rest)) := by
  constructor <;> rfl

/-- A command byte latches the command, and for READ_PAYLOAD the entry to be read; both are the sequencer's. -/
theorem keepsBlock_commandByte (i : Instr) (s : State) (rest : List Stimulus) :
    KeepsBlock s (commandByte i (ruleOf i) (s.taking rest)) := by
  obtain ⟨r, hr, -⟩ := commandByte_eq i (s.taking rest)
  rw [hr]
  constructor <;> rfl

/-- A data byte raises the fault mark, or is kept in `dbuf` until the closing edge. -/
theorem keepsBlock_dataByte (i : Instr) (b : Byte) (s : State) (rest : List Stimulus) :
    KeepsBlock s (dataByte i (ruleOf i) b (s.taking rest)) := by
  rcases dataByte_cases i b (s.taking rest) with ⟨-, hd⟩ | ⟨-, n, hd⟩ <;> rw [hd] <;> constructor <;> rfl

theorem step_csnFall_keepsBlock {s t : State} {rest : List Stimulus} (h : step s = .next t)
    (hq : s.stimuli = .csnFall :: rest) : KeepsBlock s t := by
  obtain ⟨-, rfl⟩ := step_csnFall_next h hq
  exact keepsBlock_openFrame s rest

theorem step_byte_keepsBlock {s t : State} {b : Byte} {rest : List Stimulus} (h : step s = .next t)
    (hq : s.stimuli = .byte b :: rest) : KeepsBlock s t := by
  obtain ⟨-, ⟨-, r, -, rfl⟩ | ⟨-, i, -, rfl⟩ | ⟨-, i, -, rfl⟩⟩ := step_byte_next h hq
  · exact keepsBlock_rejectByte r s rest
  · exact keepsBlock_commandByte i s rest
  · exact keepsBlock_dataByte i b s rest

/-- Settles O39: CSN_FALL and BYTE keep the block, and the Status byte, the FIFO Status byte and every register's reading are
composed from what they keep. -/
theorem nothingCommitsBeforeRise : Obligations.NothingCommitsBeforeRise := by
  intro s t hhead h
  have hk : KeepsBlock s t := by
    obtain hfall | ⟨b, hbyte⟩ := hhead
    · obtain ⟨rest, hq⟩ := List.head?_eq_some_iff.1 hfall
      exact step_csnFall_keepsBlock h hq
    · obtain ⟨rest, hq⟩ := List.head?_eq_some_iff.1 hbyte
      exact step_byte_keepsBlock h hq
  exact ⟨hk.regs, hk.rxDr, hk.txDs, hk.maxRt, hk.mode, hk.ce, hk.txArmed, hk.txq, hk.rxq, hk.statusByte, hk.fifoStatusByte,
    hk.x⟩

end Sys2Proof.Machine

/-! PROOF. Command bytes that are no command (30_encoding.md R97, R98), and the frame without a command byte (R102). -/

namespace Sys2Proof.Machine

/-! ### The command bytes that no row of the opcode map takes (R92) -/

/-- `op3` is the byte's top three bits (R91). -/
theorem opField_toNat (b : Byte) : (opField b).toNat = b.toNat / 32 := by
  have hb : b.toNat < 256 := b.isLt
  simp only [opField, BitVec.extractLsb'_toNat, Nat.shiftRight_eq_div_pow]
  omega

/-- A byte below 0x40 is of format A: its `op3` is that of a read or of a write (R91). -/
theorem opField_of_lt {b : Byte} (h : b.toNat < 0x40) : opField b = 0b000#3 ∨ opField b = 0b001#3 := by
  have ho := opField_toNat b
  have hcases : (opField b).toNat = 0 ∨ (opField b).toNat = 1 := by omega
  exact hcases.imp BitVec.eq_of_toNat_eq BitVec.eq_of_toNat_eq

/-- A byte from 0x40 on is not of format A (R91). -/
theorem opField_of_ge {b : Byte} (h : 0x40 ≤ b.toNat) : opField b ≠ 0b000#3 ∧ opField b ≠ 0b001#3 := by
  have ho := opField_toNat b
  have hne : (opField b).toNat ≠ 0 ∧ (opField b).toNat ≠ 1 := by omega
  exact hne.imp (fun h0 he => h0 (congrArg BitVec.toNat he)) (fun h1 he => h1 (congrArg BitVec.toNat he))

/-- A format-A byte with an uncatalogued address is reserved, as a read and as a write (R98). -/
theorem decode_of_uncatalogued (cfg : Config) {b : Byte} (h : b.toNat < 0x40) (hc : catalogued (addrField b) = false) :
    decode cfg b = .reserved (addrField b) := by
  obtain hread | hwrite := opField_of_lt h
  · simp [decode, hread, hc]
  · simp [decode, hwrite, hc]

/-- A byte from 0x40 on that is none of the five fixed opcodes is illegal (R97). -/
theorem decode_of_no_opcode {cfg : Config} {b : Byte} (h : 0x40 ≤ b.toNat) (h61 : b ≠ 0x61#8) (hA0 : b ≠ 0xA0#8)
    (hE1 : b ≠ 0xE1#8) (hE2 : b ≠ 0xE2#8) (hnop : b ≠ cfg.nopOpcode) : decode cfg b = .illegal b := by
  obtain ⟨hread, hwrite⟩ := opField_of_ge h
  simp [decode, hread, hwrite, h61, hA0, hE1, hE2, hnop]

/-! ### Their step: the Status byte, then the fault (R97, R98) -/

/-- In an open frame the Status byte joins the response, the fault is raised, and nothing else changes. -/
theorem step_commandByte_rejects {s : State} {b : Byte} {rest : List Stimulus} {r : Fault} (h : CommandByteNext s b rest)
    (hd : rejection (decode s.cfg b) = some r) :
    step s = .next { s with stimuli := rest, rx := s.rx ++ [s.statusByte], fault := some r } := by
  obtain ⟨hf, hs, h0, hq⟩ := h
  rw [step_rejects hf hs h0 hq hd]
  rfl

/-- A whole frame has opened when the fault is raised; its data bytes are never reached (R280). -/
theorem step_frame_rejects_commandByte {s : State} {b : Byte} {ds : List Byte} {rest : List Stimulus} {r : Fault}
    (h : FrameNext s b ds rest) (hd : rejection (decode s.cfg b) = some r) :
    step s = .next { s with stimuli := rest, fs := .cmd, fidx := 0, cmd := none, dbuf := [], rdl := none,
                            rx := [s.statusByte], fault := some r } := by
  obtain ⟨hf, hs, hq⟩ := h
  rw [step_frame_rejects hf hs hq hd]
  rfl

/-- Settles O10: such a byte decodes to none of the seven commands (R92), so both steps reject it. -/
theorem illegalOpcodeFaults : Obligations.IllegalOpcodeFaults := by
  intro s b rest h40 h61 hA0 hE1 hE2 hnop
  have hd : rejection (decode s.cfg b) = some (.illegalOpcode b) := by
    rw [decode_of_no_opcode h40 h61 hA0 hE1 hE2 hnop]; rfl
  exact ⟨fun h => step_commandByte_rejects h hd, fun _ h => step_frame_rejects_commandByte h hd⟩

/-- Settles O11: such a byte decodes to a reserved address, with `op3` of a read or of a write, so both steps reject it. -/
theorem reservedRegisterFaults : Obligations.ReservedRegisterFaults := by
  intro s b rest h40 hc
  have hd : rejection (decode s.cfg b) = some (.reservedRegister (b.extractLsb' 0 5)) := by
    rw [decode_of_uncatalogued s.cfg h40 hc]; rfl
  exact ⟨fun h => step_commandByte_rejects h hd, fun _ h => step_frame_rejects_commandByte h hd⟩

/-! ### The frame without a command byte (R102) -/

/-- A run goes on from the state that its first step gives. -/
theorem run_succ_of_step {s t : State} (k : Nat) (h : step s = .next t) :
    Host.Core.run Sys2Proof.core (k + 1) s = Host.Core.run Sys2Proof.core k t := by
  have h' : Sys2Proof.core.step s = .next t := h
  simp [Host.Core.run, h']

/-- CSN_FALL between frames opens one (R99). -/
theorem step_csnFall {s : State} {rest : List Stimulus} (hf : s.fault = none) (hs : s.fs = .idle)
    (hq : s.stimuli = .csnFall :: rest) : step s = .next (s.taking rest).openFrame := by
  simp [step, fetch, hf, hs, hq]

/-- CSN_RISE of a frame that latched no command commits nothing; `arm()` follows (R99, R102). -/
theorem step_csnRise_empty {s : State} {rest : List Stimulus} (hf : s.fault = none) (hs : s.fs ≠ .idle)
    (hq : s.stimuli = .csnRise :: rest) (hc : s.cmd = none) : step s = .next (s.taking rest).idleFrame.arm := by
  have hclose : closeEmpty (s.taking rest) = (s.taking rest).idleFrame.arm := closeFrame_of_none (by simpa using hf)
  simp [step, fetch, hf, hs, hq, hc, hclose]

/-- Where `arm_cond()` already has a transmission armed, `arm()` changes nothing (R206). -/
theorem State.arm_eq_self_of_armed {s : State} (h : InvArmed s) : s.arm = s := by
  cases hc : s.armCond with
  | false => exact s.arm_eq_self hc
  | true => rw [State.arm, if_pos hc, ← h hc]

/-- Between frames the sequencer already holds what CSN_RISE leaves in it (INV5). -/
theorem Inv.idleFrame_eq_self {s : State} (h : Inv s) (hs : s.fs = .idle) : s.idleFrame = s := by
  have h5 := h.inv5
  rw [Inv5, hs] at h5
  obtain ⟨hfidx, hcmd, hdbuf, hrdl⟩ := h5
  rw [State.idleFrame, ← hs, ← hfidx, ← hcmd, ← hdbuf, ← hrdl]

/-- Settles O40: the opening is undone by the closing (INV5), and `arm()` finds nothing left to arm. -/
theorem emptyFrameChangesNothing : Obligations.EmptyFrameChangesNothing := by
  intro s rest hinv hf hs hq
  have hfall := step_csnFall hf hs hq
  have hrise := step_csnRise_empty (s := (s.taking (.csnRise :: rest)).openFrame) hf (by simp) rfl rfl
  have hclosed : ((s.taking (.csnRise :: rest)).openFrame.taking rest).idleFrame = { s with stimuli := rest, rx := [] } :=
    congrArg (fun t : State => { t with stimuli := rest, rx := [] }) (hinv.idleFrame_eq_self hs)
  have harmed : InvArmed { s with stimuli := rest, rx := [] } := hinv.armed
  rw [run_succ_of_step 1 hfall, run_succ_of_step 0 hrise, hclosed, State.arm_eq_self_of_armed harmed]
  rfl

end Sys2Proof.Machine

/-! PROOF. The closing edge of a register write (40_register_access.md R121): the commit of the addressed register on the
state that CSN_RISE leaves, and what that is for CONFIG (R122), FIFO_STATUS (R124), the address registers (R125) and the
plain registers (R126). -/

namespace Sys2Proof.Machine

/-! ### The closing edge of any command (30_encoding.md R99) -/

/-- A commit that raises no fault is followed by the return to Idle and `arm()`. -/
theorem exec_rise_commits {i : Instr} {s : State} {rest : List Stimulus} (h : RiseNext s rest)
    (hc : ((ruleOf i).commit s.dbuf (s.taking rest)).fault = none) :
    exec i s = .next ((ruleOf i).commit s.dbuf (s.taking rest)).idleFrame.arm := by
  obtain ⟨hf, hs, hq⟩ := h
  rw [exec_rise hf hs hq]
  exact congrArg Host.Outcome.next (closeFrame_of_none hc)

/-- A commit that raises a fault is all that the closing edge does (R280). -/
theorem exec_rise_faults {i : Instr} {s : State} {rest : List Stimulus} {r : Fault} (h : RiseNext s rest)
    (hc : (ruleOf i).commit s.dbuf (s.taking rest) = (s.taking rest).raise r) :
    exec i s = .next { s with stimuli := rest, fault := some r } := by
  obtain ⟨hf, hs, hq⟩ := h
  have hfault : ((ruleOf i).commit s.dbuf (s.taking rest)).fault = some r := by rw [hc]; rfl
  rw [exec_rise hf hs hq]
  exact congrArg Host.Outcome.next ((closeFrame_of_some hfault).trans hc)

/-! ### The commit of a register write (R121) -/

@[simp] theorem writeRegister_commit_nil (a : RegAddr) (s : State) : (ruleOf (.writeRegister a)).commit [] s = s := rfl

/-- With data, the write commits to the register that its address names. -/
@[simp] theorem writeRegister_commit_cons (r : RegName) (d : Byte) (ds : List Byte) (s : State) :
    (ruleOf (.writeRegister r.addr)).commit (d :: ds) s = commitNamed d (d :: ds) s r := by
  simp [ruleOf, writeRegisterRule, commitWriteRegister, regAt_addr]

/-- FIFO_STATUS is the one register whose commit raises a fault. -/
theorem commitNamed_fault {r : RegName} (d : Byte) (dbuf : List Byte) (s : State) (hr : r ≠ .fifoStatus) :
    (commitNamed d dbuf s r).fault = s.fault := by
  cases r with
  | fifoStatus => exact absurd rfl hr
  | _ => rfl

/-- The commit neither reads nor changes the frame sequencer, so the return to Idle may come first. -/
theorem commitNamed_idleFrame (d : Byte) (dbuf : List Byte) (s : State) (r : RegName) :
    (commitNamed d dbuf s r).idleFrame = commitNamed d dbuf s.idleFrame r := by
  cases r <;> rfl

/-- A plain register's commit stores the first data byte. -/
theorem commitNamed_plain {r : RegName} (d : Byte) (dbuf : List Byte) (s : State) (hr : r.isPlain = true) :
    commitNamed d dbuf s r = commitPlain r d s := by
  cases r with
  | config | status | rxAddrP0 | txAddr | fifoStatus => cases hr
  | _ => rfl

/-! ### The closing edge of a register write -/

/-- A write without data changes nothing but what `arm()` may set (R65). -/
theorem exec_writeRegister_empty (a : RegAddr) {s : State} {rest : List Stimulus} (h : RiseNext s rest)
    (hd : s.dbuf = []) : exec (.writeRegister a) s = .next (s.closed rest).arm := by
  rw [exec_rise_commits h] <;> rw [hd, writeRegister_commit_nil]
  · rfl
  · exact h.1

/-- A write with data, to any register but FIFO_STATUS, is its register's commit on the closed frame, then `arm()`. -/
theorem exec_writeRegister_commits (r : RegName) {s : State} {d : Byte} {ds : List Byte} {rest : List Stimulus}
    (h : RiseNext s rest) (hd : s.dbuf = d :: ds) (hr : r ≠ .fifoStatus) :
    exec (.writeRegister r.addr) s = .next (commitNamed d s.dbuf (s.closed rest) r).arm := by
  rw [exec_rise_commits h] <;> rw [hd, writeRegister_commit_cons]
  · rw [commitNamed_idleFrame]; rfl
  · exact (commitNamed_fault d _ _ hr).trans h.1

/-- A write of FIFO_STATUS with data raises ReadOnlyRegister (R124). -/
theorem exec_writeRegister_fifoStatus {s : State} {d : Byte} {ds : List Byte} {rest : List Stimulus}
    (h : RiseNext s rest) (hd : s.dbuf = d :: ds) :
    exec (.writeRegister RegName.fifoStatus.addr) s =
      .next { s with stimuli := rest, fault := some (.readOnlyRegister RegName.fifoStatus.addr) } := by
  apply exec_rise_faults h
  rw [hd, writeRegister_commit_cons]
  rfl

/-- A write of a plain register stores the data byte (R126). -/
theorem exec_writeRegister_plain (r : RegName) {s : State} {d : Byte} {ds : List Byte} {rest : List Stimulus}
    (h : RiseNext s rest) (hd : s.dbuf = d :: ds) (hr : r.isPlain = true) :
    exec (.writeRegister r.addr) s = .next ({ s.closed rest with regs := s.regs.setPlain d r } : State).arm := by
  have hne : r ≠ .fifoStatus := by rintro rfl; cases hr
  rw [exec_writeRegister_commits r h hd hne, commitNamed_plain d _ _ hr]
  rfl

/-! ### The obligations -/

/-- Settles O13: the fault of FIFO_STATUS's commit is the whole closing edge, and an empty write commits nothing. -/
theorem writeFifoStatusFaults : Obligations.WriteFifoStatusFaults := by
  intro s rest h
  refine ⟨fun hlen => ?withData, exec_writeRegister_empty _ h⟩
  obtain ⟨d, ds, hd⟩ := List.exists_cons_of_length_pos hlen
  exact exec_writeRegister_fifoStatus h hd

/-- Settles O25: the closing edge is CONFIG's commit, whose mode is that of the new PRIM_RX (R201). -/
theorem writeConfigCommit : Obligations.WriteConfigCommit := by
  intro s d ds rest h hd
  exact exec_writeRegister_commits .config h hd (by decide)

/-- Settles O27: the closing edge is the address register's prefix write, which data within its width does not overrun. -/
theorem writeAddressCommit : Obligations.WriteAddressCommit := by
  intro s rest h hw hlen haw
  obtain ⟨hrx, htx⟩ := hw
  obtain ⟨d, ds, hd⟩ := List.exists_cons_of_length_pos hlen
  rw [← writeBytes_eq (haw.trans_eq hrx.symm), ← writeBytes_eq (haw.trans_eq htx.symm)]
  exact ⟨exec_writeRegister_commits .rxAddrP0 h hd (by decide), exec_writeRegister_commits .txAddr h hd (by decide)⟩

/-- Settles O28: each clause is the closing edge of a plain register's write at its register. -/
theorem writePlainCommit : Obligations.WritePlainCommit := by
  intro s d rest h hd
  have hw (r : RegName) (hr : r.isPlain = true) := exec_writeRegister_plain r h hd hr
  exact ⟨hw .enAa rfl, hw .enRxaddr rfl, hw .setupAw rfl, hw .setupRetr rfl, hw .rfCh rfl, hw .rfSetup rfl, hw .rxPwP0 rfl,
    hw .dynpd rfl, hw .feature rfl⟩

end Sys2Proof.Machine

/-! PROOF. The mode sequencer (43_mode_sequencer.md): which step changes the mode (R201), the control line (R200) and the
radio-link events (R207 to R211). -/

namespace Sys2Proof.Machine

/-! ### A whole frame up to its closing edge (30_encoding.md R99) -/

theorem KeepsBlock.trans {s t u : State} (h : KeepsBlock s t) (h' : KeepsBlock t u) : KeepsBlock s u where
  cfg := h'.cfg.trans h.cfg
  regs := h'.regs.trans h.regs
  rxDr := h'.rxDr.trans h.rxDr
  txDs := h'.txDs.trans h.txDs
  maxRt := h'.maxRt.trans h.maxRt
  mode := h'.mode.trans h.mode
  ce := h'.ce.trans h.ce
  txArmed := h'.txArmed.trans h.txArmed
  txq := h'.txq.trans h.txq
  rxq := h'.rxq.trans h.rxq

/-- The BYTE steps of a whole frame keep the block (R72). -/
theorem keepsBlock_frameBytes (i : Instr) (ds : List Byte) {s : State} (hf : s.fault = none) :
    KeepsBlock s (dataBytes i (ruleOf i) ds (commandByte i (ruleOf i) s.openFrame)) := by
  have hopen : KeepsBlock s s.openFrame := keepsBlock_openFrame s s.stimuli
  have hcommand : KeepsBlock s (commandByte i (ruleOf i) s.openFrame) :=
    hopen.trans (keepsBlock_commandByte i s.openFrame s.stimuli)
  obtain ⟨r, hr, -⟩ := commandByte_eq i s.openFrame
  refine dataBytes_induct ds hcommand (by rw [hr]; exact hf) fun b t ht _ => ?_
  exact ht.trans (keepsBlock_dataByte i b t t.stimuli)

/-- Data bytes that raise no fault are all kept, in order (R99). -/
theorem dataBytes_dbuf_of_fault_none {i : Instr} (ds : List Byte) {s : State}
    (h : (dataBytes i (ruleOf i) ds s).fault = none) : (dataBytes i (ruleOf i) ds s).dbuf = s.dbuf ++ ds := by
  induction ds generalizing s with
  | nil => simp
  | cons b ds ih =>
    rw [dataBytes_cons] at h ⊢
    obtain ⟨hb, hrest⟩ := State.andThen_fault_none h
    rw [hrest] at h ⊢
    rw [ih h]
    rcases dataByte_cases i b s with ⟨-, hd⟩ | ⟨-, n, hd⟩ <;> rw [hd] at hb ⊢
    · simp at hb
    · simp

/-- A whole frame ends with the fault of one of its bytes, or is the closing edge of a frame that holds its data bytes; the
block is as before until then. -/
theorem frameStep_cases (i : Instr) (ds : List Byte) {s : State} (hf : s.fault = none) :
    ∃ u, KeepsBlock s u ∧
      ((u.fault ≠ none ∧ frameStep i (ruleOf i) ds s = u) ∨
       (u.fault = none ∧ u.dbuf = ds ∧ frameStep i (ruleOf i) ds s = riseStep (ruleOf i) u)) := by
  refine ⟨_, keepsBlock_frameBytes i ds hf, ?_⟩
  cases hn : (dataBytes i (ruleOf i) ds (commandByte i (ruleOf i) s.openFrame)).fault with
  | some r => exact .inl ⟨by simp, State.andThen_of_some _ hn⟩
  | none =>
    refine .inr ⟨rfl, ?_, State.andThen_of_none _ hn⟩
    obtain ⟨r, hr, -⟩ := commandByte_eq i s.openFrame
    rw [dataBytes_dbuf_of_fault_none ds hn, hr]
    rfl

/-- FRAME of a command byte and data: the rejection of the byte, or the whole frame of the command it names. -/
theorem step_frame_next {s t : State} {b : Byte} {ds : List Byte} {rest : List Stimulus} (h : step s = .next t)
    (hq : s.stimuli = .frame (b :: ds) :: rest) :
    (∃ r, rejection (decode s.cfg b) = some r ∧ t = rejectByte r (s.taking rest).openFrame) ∨
    (∃ i, decode s.cfg b = .command i ∧ t = frameStep i (ruleOf i) ds (s.taking rest)) := by
  obtain ⟨-, hm⟩ := step_next h
  cases hm with
  | frameRejects b' ds' rest' r hq' hs hd =>
    obtain ⟨⟨rfl, rfl⟩, rfl⟩ : (b' = b ∧ ds' = ds) ∧ rest' = rest := by simpa [hq] using hq'.symm
    exact .inl ⟨r, hd, rfl⟩
  | frameRuns i b' ds' rest' hq' hs hd =>
    obtain ⟨⟨rfl, rfl⟩, rfl⟩ : (b' = b ∧ ds' = ds) ∧ rest' = rest := by simpa [hq] using hq'.symm
    exact .inr ⟨i, hd, rfl⟩
  | _ => simp_all

/-! ### The mode and CONFIG writes (R201) -/

/-- Of the registers, CONFIG alone selects the mode. -/
theorem commitNamed_mode {r : RegName} (d : Byte) (dbuf : List Byte) (s : State) (hr : r ≠ .config) :
    (commitNamed d dbuf s r).mode = s.mode := by
  cases r with
  | config => exact absurd rfl hr
  | _ => rfl

/-- Of the commands, a CONFIG write with data alone commits a mode. -/
theorem commit_mode_ne {i : Instr} {dbuf : List Byte} {s : State} (h : ((ruleOf i).commit dbuf s).mode ≠ s.mode) :
    i = .writeRegister RegName.config.addr ∧ dbuf ≠ [] := by
  cases i with
  | writeRegister a =>
    cases dbuf with
    | nil => exact absurd rfl h
    | cons d ds =>
      cases ha : regAt a with
      | none => exact absurd (by simp [ruleOf, writeRegisterRule, commitWriteRegister, ha]) h
      | some r =>
        obtain rfl := (regAt_eq_some_iff _ _).1 ha
        rw [writeRegister_commit_cons] at h
        obtain rfl : r = .config := by_contra fun hr => h (commitNamed_mode d _ s hr)
        exact ⟨rfl, by simp⟩
  | readPayload =>
    refine absurd ?_ h
    simp only [ruleOf, readPayloadRule, commitReadPayload]
    split <;> rfl
  | writePayload =>
    refine absurd ?_ h
    simp only [ruleOf, writePayloadRule, commitWritePayload]
    split
    · rfl
    · split <;> rfl
  | _ => exact absurd rfl h

/-- A closing edge that changes the mode is that of a CONFIG write with data. -/
theorem riseStep_mode_ne {i : Instr} {s : State} (hf : s.fault = none)
    (h : (riseStep (ruleOf i) s).mode ≠ s.mode) : i = .writeRegister RegName.config.addr ∧ s.dbuf ≠ [] := by
  rcases riseStep_cases i s hf with ⟨-, hr⟩ | ⟨-, -, hr⟩ | ⟨-, -, -, hr⟩ <;> rw [hr] at h
  · exact commit_mode_ne (by simpa using h)
  · exact absurd rfl h
  · exact absurd rfl h

/-- A whole frame that changes the mode is that of a CONFIG write with data. -/
theorem frameStep_mode_ne {i : Instr} {ds : List Byte} {s : State} (hf : s.fault = none)
    (h : (frameStep i (ruleOf i) ds s).mode ≠ s.mode) : i = .writeRegister RegName.config.addr ∧ ds ≠ [] := by
  obtain ⟨u, hu, ⟨-, hr⟩ | ⟨hn, rfl, hr⟩⟩ := frameStep_cases i ds hf <;> rw [hr, ← hu.mode] at h
  · exact absurd rfl h
  · exact riseStep_mode_ne hn h

/-- A step that changes the mode commits a CONFIG write: not CE, not an event, not another command. -/
theorem Moved.mode_ne {s t : State} (hm : Moved s t) (hf : s.fault = none) (h : t.mode ≠ s.mode) :
    CommitsWrite s .config := by
  cases hm with
  | rises i rest hq _ hc =>
    obtain ⟨rfl, hd⟩ := riseStep_mode_ne (s := s.taking rest) hf h
    exact .inl ⟨_, rest, hq, hc, regAt_addr .config, hd⟩
  | frameRuns i b ds rest hq _ hd =>
    obtain ⟨rfl, hds⟩ := frameStep_mode_ne (s := s.taking rest) hf h
    exact .inr ⟨b, ds, rest, _, hq, hd, regAt_addr .config, hds⟩
  | command i b rest => exact absurd (keepsBlock_commandByte i s rest).mode h
  | data i b rest => exact absurd (keepsBlock_dataByte i b s rest).mode h
  | waits | opens | rejects | frameRejects => exact absurd rfl h
  | risesEmpty | frameEmpty | ce | evTxDs | evMaxRt | evRx => exact absurd (by simp) h

/-- The closing edge of a CONFIG write stores the byte and selects its mode (R122). -/
theorem riseStep_config {s t : State} {d : Byte} {ds : List Byte} (hf : s.fault = none) (hd : s.dbuf = d :: ds)
    (hr : riseStep (ruleOf (.writeRegister RegName.config.addr)) s = t) :
    t.regs.config = d ∧ t.mode = modeOf s.cfg d := by
  have hcommit : riseStep (ruleOf (.writeRegister RegName.config.addr)) s = (commitConfig d s).idleFrame.arm := by
    rw [riseStep, hd]
    exact closeFrame_of_none hf
  rw [← hr, hcommit]
  simp [commitConfig]

/-- A whole frame of a CONFIG write, ended without a fault, stores the byte and selects its mode. -/
theorem frameStep_config {s t : State} {d : Byte} {ds : List Byte} (hf : s.fault = none)
    (hr : frameStep (.writeRegister RegName.config.addr) (ruleOf (.writeRegister RegName.config.addr)) (d :: ds) s = t)
    (ht : t.fault = none) : t.regs.config = d ∧ t.mode = modeOf s.cfg d := by
  obtain ⟨u, hu, ⟨hn, hr'⟩ | ⟨hn, hd, hr'⟩⟩ := frameStep_cases (.writeRegister RegName.config.addr) (d :: ds) hf
  · obtain rfl : u = t := hr'.symm.trans hr
    exact absurd ht hn
  · rw [← hu.cfg]
    exact riseStep_config hn hd (hr'.symm.trans hr)

/-- The command byte of a CONFIG write (R92). -/
theorem decode_writeConfig (cfg : Config) : decode cfg 0x20#8 = .command (.writeRegister RegName.config.addr) := rfl

/-- Settles O47: no step but a CONFIG commit reaches the mode, and that commit is read off the closing edge, which a whole
frame without a fault comes to with its data bytes. -/
theorem modeFollowsConfigWritesOnly : Obligations.ModeFollowsConfigWritesOnly := by
  intro s t h
  obtain ⟨hf, hm⟩ := step_next h
  refine ⟨hm.mode_ne hf, ?_⟩
  rintro d ds rest (⟨hq, hc, hd⟩ | ⟨hq, ht⟩)
  case inl => -- the closing edge
    obtain ⟨-, ⟨i, hi, rfl⟩ | ⟨hnone, -⟩⟩ := step_csnRise_next h hq
    · obtain rfl : i = .writeRegister RegName.config.addr := Option.some.inj (hi.symm.trans hc)
      exact riseStep_config (s := s.taking rest) hf hd rfl
    · simp [hc] at hnone
  case inr => -- the whole frame
    obtain ⟨r, -, rfl⟩ | ⟨i, hi, rfl⟩ := step_frame_next h hq
    · simp at ht
    · obtain rfl : i = .writeRegister RegName.config.addr := Decoded.command.inj (hi.symm.trans (decode_writeConfig _))
      exact frameStep_config (s := s.taking rest) hf rfl ht

/-! ### The control line (R200) -/

/-- CE(level) has a step in every phase of the frame sequencer. -/
theorem step_ce {s : State} {level : Level} {rest : List Stimulus} (hf : s.fault = none)
    (hq : s.stimuli = .ce level :: rest) : step s = stepCe level (s.taking rest) := by
  simp only [step, fetch, hf, hq]

/-- Settles O41: the level that the line already has leaves only `arm()`, which finds nothing left to arm. -/
theorem controlLineStep : Obligations.ControlLineStep := by
  intro s level rest hf hq
  refine ⟨step_ce hf hq, fun hinv hce => ?_⟩
  subst hce
  have harmed : InvArmed { s with stimuli := rest } := hinv.armed
  rw [step_ce hf hq]
  exact congrArg Host.Outcome.next (State.arm_eq_self_of_armed harmed)

/-! ### The radio-link events (R207 to R209) -/

theorem step_evTxDs {s : State} {rest : List Stimulus} (hf : s.fault = none) (hq : s.stimuli = .evTxDs :: rest) :
    step s = stepEvTxDs (s.taking rest) := by
  simp only [step, fetch, hf, hq]

theorem step_evMaxRt {s : State} {rest : List Stimulus} (hf : s.fault = none) (hq : s.stimuli = .evMaxRt :: rest) :
    step s = stepEvMaxRt (s.taking rest) := by
  simp only [step, fetch, hf, hq]

theorem step_evRx {s : State} {p : List Byte} {rest : List Stimulus} (hf : s.fault = none)
    (hq : s.stimuli = .evRx p :: rest) : step s = stepEvRx p (s.taking rest) := by
  simp only [step, fetch, hf, hq]

/-- `listening()` (R35). -/
theorem State.listening_iff (s : State) : s.listening = true ↔ s.mode = .receive ∧ s.ce = .high ∧ s.pwrUp = true := by
  simp [State.listening, and_assoc]

/-- In Receive nothing is armed (R35). -/
theorem State.armCond_of_receive {s : State} (h : s.mode = .receive) : s.armCond = false := by
  simp [State.armCond, h]

/-- The guard of EV_RX, for a packet of `PW` bytes (R209). -/
theorem stepEvRx_of_guard {p : List Byte} {s : State} (hp : p.length = payloadWidth) (hl : s.listening = true)
    (hn : s.rxq.length < s.cfg.fifoDepth) :
    stepEvRx p s = .next ({ s.rxPush ⟨0, p⟩ with rxDr := true } : State).arm := by
  simp [stepEvRx, hp, hl, hn]

theorem stepEvRx_of_not_guard {p : List Byte} {s : State} (hp : p.length = payloadWidth)
    (h : ¬ (s.listening = true ∧ s.rxq.length < s.cfg.fifoDepth)) : stepEvRx p s = .refused .eventNotEnabled := by
  have hguard : (s.listening && decide (s.rxq.length < s.cfg.fifoDepth)) = false := by simpa using h
  simp [stepEvRx, hp, hguard]

/-- Settles O44: the guard decides, and `arm()` does nothing in Receive. -/
theorem packetReceivedEvent : Obligations.PacketReceivedEvent := by
  intro s p rest hf hq hp
  have hlisten := (s.taking rest).listening_iff
  refine ⟨fun ⟨hmode, hce, hpwr, hroom⟩ => ?enabled, fun hg => ?refused⟩ <;> rw [step_evRx hf hq]
  case enabled =>
    rw [stepEvRx_of_guard hp (hlisten.2 ⟨hmode, hce, hpwr⟩) hroom]
    exact congrArg Host.Outcome.next (State.arm_eq_self _ (State.armCond_of_receive hmode))
  case refused =>
    refine stepEvRx_of_not_guard hp fun ⟨hl, hroom⟩ => hg ?_
    obtain ⟨hmode, hce, hpwr⟩ := hlisten.1 hl
    exact ⟨hmode, hce, hpwr, hroom⟩

/-- Settles O45: each event changes a FIFO or the arming and sets one flag, and `arm()` changes the arming alone. -/
theorem eventsFrame : Obligations.EventsFrame := by
  rintro s e rest hf hq (rfl | rfl | ⟨p, rfl⟩)
  case inl => -- EV_TX_DS
    rw [step_evTxDs hf hq]
    refine ⟨fun t h => ?_, fun harmed _ => ⟨_, if_pos harmed⟩⟩
    obtain ⟨-, rfl⟩ := stepEvTxDs_next h
    simp
  case inr.inl => -- EV_MAX_RT
    rw [step_evMaxRt hf hq]
    refine ⟨fun t h => ?_, fun harmed _ => ⟨_, if_pos harmed⟩⟩
    obtain ⟨-, rfl⟩ := stepEvMaxRt_next h
    simp
  case inr.inr => -- EV_RX
    rw [step_evRx hf hq]
    refine ⟨fun t h => ?_, fun _ he => by simp at he⟩
    obtain ⟨-, -, -, rfl⟩ := stepEvRx_next h
    simp

end Sys2Proof.Machine

/-! PROOF. The table of fault reasons (60_exceptions.md R281): the fault that each bus step leaves, and the row of the table
that it is. -/

namespace Sys2Proof.Machine

/-! ### F1 and F2: which command bytes are rejected (30_encoding.md R97, R98) -/

/-- A format-A byte with a catalogued address names a read or a write of it (R93). -/
theorem decode_of_catalogued (cfg : Config) {b : Byte} (h : b.toNat < 0x40) (hc : catalogued (addrField b) = true) :
    ∃ i, decode cfg b = .command i := by
  obtain hread | hwrite := opField_of_lt h
  · exact ⟨.readRegister (addrField b), by simp [decode, hread, hc]⟩
  · exact ⟨.writeRegister (addrField b), by simp [decode, hwrite, hc]⟩

/-- Each of the five fixed opcodes names a command (R92). -/
theorem decode_of_opcode {cfg : Config} {b : Byte} (h : 0x40 ≤ b.toNat)
    (hop : ¬ (b ≠ 0x61#8 ∧ b ≠ 0xA0#8 ∧ b ≠ 0xE1#8 ∧ b ≠ 0xE2#8 ∧ b ≠ cfg.nopOpcode)) :
    ∃ i, decode cfg b = .command i := by
  obtain ⟨hread, hwrite⟩ := opField_of_ge h
  simp only [decode, if_neg hread, if_neg hwrite]
  split_ifs with h61 hA0 hE1 hE2 hnop
  case neg => exact absurd ⟨h61, hA0, hE1, hE2, hnop⟩ hop
  all_goals exact ⟨_, rfl⟩

/-- The command bytes that are rejected, each with its fault: those of R97 and those of R98. -/
theorem rejection_eq_some_iff {cfg : Config} {b : Byte} {r : Fault} :
    rejection (decode cfg b) = some r ↔
      (0x40 ≤ b.toNat ∧ (b ≠ 0x61#8 ∧ b ≠ 0xA0#8 ∧ b ≠ 0xE1#8 ∧ b ≠ 0xE2#8 ∧ b ≠ cfg.nopOpcode) ∧ r = .illegalOpcode b) ∨
      (b.toNat < 0x40 ∧ catalogued (addrField b) = false ∧ r = .reservedRegister (addrField b)) := by
  obtain hlt | hge := Nat.lt_or_ge b.toNat 0x40
  · cases hc : catalogued (addrField b) with
    | false => simp [decode_of_uncatalogued cfg hlt hc, rejection, hlt, Nat.not_le.2 hlt, eq_comm]
    | true =>
      obtain ⟨i, hi⟩ := decode_of_catalogued cfg hlt hc
      simp [hi, rejection, Nat.not_le.2 hlt]
  · by_cases hop : b ≠ 0x61#8 ∧ b ≠ 0xA0#8 ∧ b ≠ 0xE1#8 ∧ b ≠ 0xE2#8 ∧ b ≠ cfg.nopOpcode
    · have ⟨h61, hA0, hE1, hE2, hnop⟩ := hop
      rw [decode_of_no_opcode hge h61 hA0 hE1 hE2 hnop]
      refine ⟨fun h => .inl ⟨hge, hop, (Option.some.inj h).symm⟩, ?_⟩
      rintro (⟨-, -, rfl⟩ | ⟨hlt, -⟩)
      · rfl
      · exact absurd hge (Nat.not_le.2 hlt)
    · obtain ⟨i, hi⟩ := decode_of_opcode hge hop
      rw [hi]
      refine iff_of_false (by simp [rejection]) ?_
      rintro (⟨-, hn, -⟩ | ⟨hlt, -⟩)
      · exact hop hn
      · exact absurd hge (Nat.not_le.2 hlt)

/-! ### The fault that each piece of a frame leaves -/

@[simp] theorem commandByte_fault (i : Instr) (s : State) : (commandByte i (ruleOf i) s).fault = s.fault := by
  obtain ⟨r, hr, -⟩ := commandByte_eq i s
  rw [hr]

/-- A data byte raises LengthMismatch at or beyond `maxdata(cmd)` and nothing else (R66). -/
theorem dataByte_fault_iff {i : Instr} {b : Byte} {s : State} {r : Fault} (hf : s.fault = none) :
    (dataByte i (ruleOf i) b s).fault = some r ↔
      i.maxData s.cfg ≤ s.fidx - 1 ∧ r = .lengthMismatch i (s.fidx - 1) := by
  obtain ⟨hk, hd⟩ | ⟨hk, n, hd⟩ := dataByte_cases i b s <;> rw [hd]
  · simp [hk, eq_comm]
  · simp [hf, Nat.not_le.2 hk]

/-- A closing edge leaves the fault of its commit: the return to Idle and `arm()` raise none (R99). -/
theorem riseStep_fault (i : Instr) (s : State) :
    (riseStep (ruleOf i) s).fault = ((ruleOf i).commit s.dbuf s).fault := by
  cases hn : ((ruleOf i).commit s.dbuf s).fault with
  | none => rw [riseStep, closeFrame_of_none hn]; simpa using hn
  | some r => rw [riseStep, closeFrame_of_some hn]; exact hn

/-- A payload with data commits an overflow into a full TX FIFO (R163). -/
theorem writePayload_commit_full {dbuf : List Byte} {s : State} (hd : 1 ≤ dbuf.length)
    (hq : s.txq.length = s.cfg.fifoDepth) : (ruleOf .writePayload).commit dbuf s = s.raise .txFifoOverflow := by
  have hne : dbuf ≠ [] := List.length_pos_iff.1 hd
  simp [ruleOf, writePayloadRule, commitWritePayload, State.txFull, hne, hq]

/-- The closing edges that raise a fault are those of R124 and of R163. -/
theorem riseStep_fault_iff {i : Instr} {s : State} {r : Fault} (hf : s.fault = none) :
    (riseStep (ruleOf i) s).fault = some r ↔
      (i = .writeRegister 0x17#5 ∧ 1 ≤ s.dbuf.length ∧ r = .readOnlyRegister 0x17#5) ∨
      (i = .writePayload ∧ 1 ≤ s.dbuf.length ∧ s.txq.length = s.cfg.fifoDepth ∧ r = .txFifoOverflow) := by
  constructor
  · intro h
    obtain ⟨hn, -⟩ | ⟨hi, hd, hr⟩ | ⟨hi, hd, hq, hr⟩ := riseStep_cases i s hf
    · rw [riseStep_fault, hn] at h
      cases h
    · rw [hr] at h
      exact .inl ⟨hi, List.length_pos_iff.2 hd, (Option.some.inj h).symm⟩
    · rw [hr] at h
      exact .inr ⟨hi, List.length_pos_iff.2 hd, hq, (Option.some.inj h).symm⟩
  · rw [riseStep_fault]
    rintro (⟨rfl, hd, rfl⟩ | ⟨rfl, hd, hq, rfl⟩)
    · obtain ⟨d, ds, hcons⟩ := List.exists_cons_of_length_pos hd
      rw [hcons]
      exact congrArg State.fault (writeRegister_commit_cons .fifoStatus d ds s)
    · rw [writePayload_commit_full hd hq, State.raise_fault]

/-! ### The rows of the table, by the step that comes next (R281) -/

/-- Every row of the table is a row of BYTE or of CSN_RISE. -/
theorem Raises.stimuli_eq {s : State} {r : Fault} (h : Raises s r) :
    ∃ rest, (∃ b, s.stimuli = .byte b :: rest) ∨ s.stimuli = .csnRise :: rest := by
  cases h with
  | f1 b rest h | f2 b rest h | f3 b rest _ h =>
    obtain ⟨-, -, -, hq⟩ := h
    exact ⟨rest, .inl ⟨b, hq⟩⟩
  | f4 rest h | f5 rest h =>
    obtain ⟨-, -, hq⟩ := h
    exact ⟨rest, .inr hq⟩

/-- At a command byte the rows are F1 and F2: the byte's rejection. -/
theorem raises_commandByte_iff {s : State} {b : Byte} {rest : List Stimulus} {r : Fault} (h : CommandByteNext s b rest) :
    Raises s r ↔ rejection (decode s.cfg b) = some r := by
  rw [rejection_eq_some_iff]
  have ⟨_, _, h0, hq⟩ := h
  constructor
  · intro hr
    cases hr with
    | f1 b' rest' h' hb hn =>
      obtain ⟨-, -, -, hq'⟩ := h'
      obtain ⟨rfl, -⟩ : b' = b ∧ rest' = rest := by simpa [hq] using hq'.symm
      exact .inl ⟨hb, hn, rfl⟩
    | f2 b' rest' h' hb hn =>
      obtain ⟨-, -, -, hq'⟩ := h'
      obtain ⟨rfl, -⟩ : b' = b ∧ rest' = rest := by simpa [hq] using hq'.symm
      exact .inr ⟨hb, hn, rfl⟩
    | f3 _ _ _ h' =>
      obtain ⟨-, -, h0', -⟩ := h'
      exact absurd h0 h0'
    | f4 _ h' | f5 _ h' =>
      obtain ⟨-, -, hq'⟩ := h'
      cases hq.symm.trans hq'
  · rintro (⟨hb, hn, rfl⟩ | ⟨hb, hn, rfl⟩)
    · exact .f1 b rest h hb hn
    · exact .f2 b rest h hb hn

/-- At a data byte the row is F3. -/
theorem raises_dataByte_iff {s : State} {b : Byte} {rest : List Stimulus} {i : Instr} {r : Fault}
    (h : DataByteNext s b rest) (hc : s.cmd = some i) :
    Raises s r ↔ i.maxData s.cfg ≤ s.fidx - 1 ∧ r = .lengthMismatch i (s.fidx - 1) := by
  have ⟨_, _, h0, hq⟩ := h
  constructor
  · intro hr
    cases hr with
    | f1 _ _ h' | f2 _ _ h' =>
      obtain ⟨-, -, h0', -⟩ := h'
      exact absurd h0' h0
    | f3 _ _ j _ hj hk =>
      obtain rfl : j = i := Option.some.inj (hj.symm.trans hc)
      exact ⟨hk, rfl⟩
    | f4 _ h' | f5 _ h' =>
      obtain ⟨-, -, hq'⟩ := h'
      cases hq.symm.trans hq'
  · rintro ⟨hk, rfl⟩
    exact .f3 b rest i h hc hk

/-- At a closing edge the rows are F4 and F5. -/
theorem raises_rise_iff {s : State} {rest : List Stimulus} {r : Fault} (h : RiseNext s rest) :
    Raises s r ↔
      (s.cmd = some (.writeRegister 0x17#5) ∧ 1 ≤ s.dbuf.length ∧ r = .readOnlyRegister 0x17#5) ∨
      (s.cmd = some .writePayload ∧ 1 ≤ s.dbuf.length ∧ s.txq.length = s.cfg.fifoDepth ∧ r = .txFifoOverflow) := by
  have ⟨_, _, hq⟩ := h
  constructor
  · intro hr
    cases hr with
    | f1 _ _ h' | f2 _ _ h' | f3 _ _ _ h' =>
      obtain ⟨-, -, -, hq'⟩ := h'
      cases hq.symm.trans hq'
    | f4 _ _ hc hd => exact .inl ⟨hc, hd, rfl⟩
    | f5 _ _ hc hd hfull => exact .inr ⟨hc, hd, hfull, rfl⟩
  · rintro (⟨hc, hd, rfl⟩ | ⟨hc, hd, hfull, rfl⟩)
    · exact .f4 rest h hc hd
    · exact .f5 rest h hc hd hfull

/-- A step that is neither BYTE nor CSN_RISE is in no row. -/
theorem not_raises_of_head {s : State} {r : Fault} (hb : ∀ b rest, s.stimuli ≠ .byte b :: rest)
    (hr : ∀ rest, s.stimuli ≠ .csnRise :: rest) : ¬ Raises s r := by
  intro h
  obtain ⟨rest, ⟨b, hq⟩ | hq⟩ := h.stimuli_eq
  · exact hb b rest hq
  · exact hr rest hq

/-- A step of a kind that raises no fault and is in no row agrees with the table. -/
theorem fault_iff_raises_of_head {s t : State} {r : Fault} (ht : t.fault = none)
    (hb : ∀ b rest, s.stimuli ≠ .byte b :: rest) (hr : ∀ rest, s.stimuli ≠ .csnRise :: rest) :
    t.fault = some r ↔ Raises s r := by
  simp [ht, not_raises_of_head hb hr]

/-- Settles O15: each micro-step's fault is compared with the rows of the table for that step: F1 and F2 at a command byte,
F3 at a data byte, F4 and F5 at a closing edge, none at any other. -/
theorem faultTableIsComplete : Obligations.FaultTableIsComplete := by
  intro s t hmicro h r
  obtain ⟨hf, hm⟩ := step_next h
  cases hm with
  | rejects b rest r' hq hs h0 hd =>
    rw [raises_commandByte_iff ⟨hf, hs, h0, hq⟩, hd, rejectByte_fault]
  | command i b rest hq hs h0 hd =>
    rw [raises_commandByte_iff ⟨hf, hs, h0, hq⟩, hd]
    simp [rejection, hf]
  | data i b rest hq hs h0 hc =>
    rw [raises_dataByte_iff ⟨hf, hs, h0, hq⟩ hc]
    exact dataByte_fault_iff (s := s.taking rest) hf
  | rises i rest hq hs hc =>
    rw [raises_rise_iff ⟨hf, hs, hq⟩, riseStep_fault_iff (s := s.taking rest) hf]
    simp [hc]
  | risesEmpty rest hq hs hc =>
    rw [raises_rise_iff ⟨hf, hs, hq⟩]
    simp [hc, hf]
  | frameEmpty rest hq => exact absurd hq (hmicro _ _)
  | frameRejects b ds rest r' hq => exact absurd hq (hmicro _ _)
  | frameRuns i b ds rest hq => exact absurd hq (hmicro _ _)
  | waits hq | opens rest hq | ce level rest hq | evTxDs rest hq | evMaxRt rest hq | evRx p rest hq =>
    exact fault_iff_raises_of_head (by simpa using hf) (by simp [hq]) (by simp [hq])

end Sys2Proof.Machine

/-! PROOF. The command byte (30_encoding.md): the two fields of format A, the round trips between a command and its byte, the
bytes that are rejected, the census of the 256 bytes, and `maxdata(cmd)`. -/

namespace Sys2Proof.Machine

/-! ### The fields of format A (R91) -/

theorem opField_append (o : BitVec 3) (a : RegAddr) : opField (o ++ a) = o :=
  BitVec.extractLsb'_append_eq_left

theorem addrField_append (o : BitVec 3) (a : RegAddr) : addrField (o ++ a) = a :=
  BitVec.extractLsb'_append_eq_right

/-- The two fields are the whole byte. -/
theorem opField_append_addrField (b : Byte) : opField b ++ addrField b = b := by
  have h : opField b ++ addrField b = b.extractLsb' 0 8 := BitVec.extractLsb'_append_extractLsb'_eq_extractLsb' rfl
  rw [h, BitVec.extractLsb'_eq_self]

/-! ### The decoder, by the kind of byte (R92, R100) -/

/-- A byte with `op3` of a read. -/
theorem decode_read {cfg : Config} {b : Byte} (h : opField b = 0b000#3) :
    decode cfg b = if catalogued (addrField b) then .command (.readRegister (addrField b)) else .reserved (addrField b) :=
  if_pos h

/-- A byte with `op3` of a write. -/
theorem decode_write {cfg : Config} {b : Byte} (h : opField b = 0b001#3) :
    decode cfg b = if catalogued (addrField b) then .command (.writeRegister (addrField b)) else .reserved (addrField b) := by
  rw [decode, if_neg (by rw [h]; decide), if_pos h]

theorem decode_readPayload (cfg : Config) : decode cfg 0x61#8 = .command .readPayload := rfl

theorem decode_writePayload (cfg : Config) : decode cfg 0xA0#8 = .command .writePayload := rfl

theorem decode_flushTx (cfg : Config) : decode cfg 0xE1#8 = .command .flushTx := rfl

theorem decode_flushRx (cfg : Config) : decode cfg 0xE2#8 = .command .flushRx := rfl

/-- `NOP_OPCODE` is no byte of another row (R6), so it decodes to NOP. -/
theorem decode_nopOpcode {cfg : Config} (h : cfg.wf) : decode cfg cfg.nopOpcode = .command .nop := by
  obtain ⟨-, -, ⟨hge, h61, hA0, hE1, hE2⟩, -⟩ := h
  obtain ⟨hread, hwrite⟩ := opField_of_ge hge
  simp [decode, hread, hwrite, h61, hA0, hE1, hE2]

/-- Settles O1: a register command's byte has its `op3` and its address as fields, each fixed opcode stands in its own row, and
`NOP_OPCODE` is in none of the others. -/
theorem decodeInvertsEncode : Obligations.DecodeInvertsEncode := by
  intro cfg i hcfg hi
  cases i with
  | readRegister a =>
    have ha : catalogued a = true := hi
    rw [encode, decode_read (opField_append _ a), addrField_append, if_pos ha]
  | writeRegister a =>
    have ha : catalogued a = true := hi
    rw [encode, decode_write (opField_append _ a), addrField_append, if_pos ha]
  | nop => exact decode_nopOpcode hcfg
  | readPayload => exact decode_readPayload cfg
  | writePayload => exact decode_writePayload cfg
  | flushTx => exact decode_flushTx cfg
  | flushRx => exact decode_flushRx cfg

/-- Settles O2: each branch of the decoder has tested what the encoder writes. -/
theorem encodeInvertsDecode : Obligations.EncodeInvertsDecode := by
  intro cfg b i h
  have hfields := opField_append_addrField b
  unfold decode at h
  split_ifs at h with hread hcat hwrite hcat h61 hA0 hE1 hE2 hnop <;> cases h
  · exact ⟨hcat, by rw [encode, ← hread, hfields]⟩
  · exact ⟨hcat, by rw [encode, ← hwrite, hfields]⟩
  all_goals exact ⟨rfl, Eq.symm (by assumption)⟩

/-! ### The bytes that are rejected (R97, R98) -/

/-- A byte is illegal exactly when F1 is its rejection, and names a reserved address exactly when F2 is. -/
theorem decode_eq_illegal_iff {cfg : Config} {b c : Byte} :
    decode cfg b = .illegal c ↔ rejection (decode cfg b) = some (.illegalOpcode c) := by
  cases decode cfg b <;> simp [rejection]

theorem decode_eq_reserved_iff {cfg : Config} {b : Byte} {a : RegAddr} :
    decode cfg b = .reserved a ↔ rejection (decode cfg b) = some (.reservedRegister a) := by
  cases decode cfg b <;> simp [rejection]

/-- Settles O3: the rejections of R97 and R98 are the two ranges of bytes. -/
theorem rejectedCommandBytes : Obligations.RejectedCommandBytes := by
  intro cfg b
  simp only [decode_eq_illegal_iff, decode_eq_reserved_iff, rejection_eq_some_iff]
  refine ⟨by simp, fun a => ?_, fun c => ?_⟩
  · constructor
    · rintro (⟨-, -, hr⟩ | ⟨hlt, hcat, hr⟩)
      · cases hr
      · cases hr; exact ⟨hlt, hcat, rfl⟩
    · rintro ⟨hlt, hcat, rfl⟩
      exact .inr ⟨hlt, hcat, rfl⟩
  · rintro (⟨-, -, hr⟩ | ⟨-, -, hr⟩)
    · cases hr; rfl
    · cases hr

/-- Settles O5: each word is the row of the opcode map that it is written from. -/
theorem sampleWordsDecode : Obligations.SampleWordsDecode := by
  intro cfg hcfg
  exact ⟨rfl, rfl, decode_readPayload cfg, decode_writePayload cfg, decode_flushTx cfg, decode_flushRx cfg,
    decode_nopOpcode hcfg, rfl⟩

/-! ### `maxdata(cmd)` (R94) -/

/-- A catalogued register has one byte, but the two address registers `AW` (R22). -/
theorem regWidth_of_catalogued (cfg : Config) {a : RegAddr} (h : catalogued a = true) :
    regWidth cfg a = if a = 0x0A#5 ∨ a = 0x10#5 then cfg.aw else 1 := by
  obtain ⟨r, hr⟩ := Option.isSome_iff_exists.1 h
  obtain rfl := (regAt_eq_some_iff _ _).1 hr
  rw [regWidth, hr]
  cases r <;> rfl

/-- Settles O6: the value of each row, and the bound by `PW`. -/
theorem maxDataValues : Obligations.MaxDataValues := by
  intro cfg hcfg
  refine ⟨fun a ha => ?_, rfl, rfl, rfl, rfl, rfl, maxData_le_payloadWidth hcfg⟩
  exact ⟨regWidth_of_catalogued cfg ha, regWidth_of_catalogued cfg ha⟩

end Sys2Proof.Machine

/-! PROOF. The census of the 256 command bytes (30_encoding.md R100). -/

namespace Sys2Proof.Machine

/-! ### The kinds of command byte -/

def Decoded.isRead : Decoded → Bool
  | .command (.readRegister _) => true
  | _ => false

def Decoded.isWrite : Decoded → Bool
  | .command (.writeRegister _) => true
  | _ => false

def Decoded.isReserved : Decoded → Bool
  | .reserved _ => true
  | _ => false

/-- One of the commands whose byte has no field. -/
def Decoded.isFixed : Decoded → Bool
  | .command .readPayload | .command .writePayload | .command .flushTx | .command .flushRx | .command .nop => true
  | _ => false

def Decoded.isIllegal : Decoded → Bool
  | .illegal _ => true
  | _ => false

/-- The fixed opcodes of the opcode map that no parameter moves (R92). -/
def fixedOpcodes : List Byte := [0x61#8, 0xA0#8, 0xE1#8, 0xE2#8]

/-- The byte is of format A with an uncatalogued address (R98). -/
def namesReserved (b : Byte) : Bool :=
  (opField b == 0b000#3 || opField b == 0b001#3) && !catalogued (addrField b)

/-- The byte is of no row of the opcode map but, if it is `NOP_OPCODE`, of NOP's. -/
def inNoFixedRow (b : Byte) : Bool := decide (0x40 ≤ b.toNat) && !fixedOpcodes.contains b

theorem isRead_decode (cfg : Config) (b : Byte) :
    Decoded.isRead (decode cfg b) = (opField b == 0b000#3 && catalogued (addrField b)) := by
  unfold decode
  split_ifs <;> simp_all [Decoded.isRead]

theorem isWrite_decode (cfg : Config) (b : Byte) :
    Decoded.isWrite (decode cfg b) = (opField b == 0b001#3 && catalogued (addrField b)) := by
  unfold decode
  split_ifs <;> simp_all [Decoded.isWrite]

theorem isReserved_decode (cfg : Config) (b : Byte) : Decoded.isReserved (decode cfg b) = namesReserved b := by
  unfold decode
  split_ifs <;> simp_all [Decoded.isReserved, namesReserved]

/-- A byte is one of the fixed commands' when it is in the map's fixed rows or is `NOP_OPCODE`. -/
theorem isFixed_decode {cfg : Config} (h : cfg.wf) (b : Byte) :
    Decoded.isFixed (decode cfg b) = (fixedOpcodes.contains b || b == cfg.nopOpcode) := by
  by_cases hb : fixedOpcodes.contains b = true ∨ b = cfg.nopOpcode
  · have hd : ∃ i, decode cfg b = .command i ∧ Decoded.isFixed (.command i) = true := by
      simp only [fixedOpcodes, List.contains_cons, List.contains_nil, Bool.or_eq_true, beq_iff_eq, Bool.false_eq_true, or_false] at hb
      rcases hb with (rfl | rfl | rfl | rfl) | rfl
      · exact ⟨_, decode_readPayload cfg, rfl⟩
      · exact ⟨_, decode_writePayload cfg, rfl⟩
      · exact ⟨_, decode_flushTx cfg, rfl⟩
      · exact ⟨_, decode_flushRx cfg, rfl⟩
      · exact ⟨_, decode_nopOpcode h, rfl⟩
    obtain ⟨i, hd, hi⟩ := hd
    rw [hd, hi]
    simpa using hb
  · unfold decode
    split_ifs <;> simp_all [Decoded.isFixed, fixedOpcodes]

theorem isIllegal_decode (cfg : Config) (b : Byte) :
    Decoded.isIllegal (decode cfg b) = (inNoFixedRow b && b != cfg.nopOpcode) := by
  have hiff : Decoded.isIllegal (decode cfg b) = true ↔ decode cfg b = .illegal b := by
    cases hd : decode cfg b with
    | illegal c =>
      have hc := (rejectedCommandBytes cfg b).2.2 c hd
      simp [Decoded.isIllegal, hc]
    | _ => simp [Decoded.isIllegal]
  rw [Bool.eq_iff_iff, hiff, (rejectedCommandBytes cfg b).1]
  simp [inNoFixedRow, fixedOpcodes, and_assoc]

/-! ### Counting the bytes -/

/-- The 256 bytes. -/
def allBytes : List Byte := (List.range 256).map (BitVec.ofNat 8)

theorem countP_allBytes (p : Byte → Bool) : ((List.range 256).countP fun n => p (BitVec.ofNat 8 n)) = allBytes.countP p :=
  List.countP_map.symm

theorem mem_allBytes (b : Byte) : b ∈ allBytes :=
  List.mem_map.2 ⟨b.toNat, List.mem_range.2 b.isLt, by simp⟩

theorem nodup_allBytes : allBytes.Nodup := by
  refine List.Nodup.map_on ?_ List.nodup_range
  intro m hm n hn h
  have hmod : m % 256 = n % 256 := by simpa using congrArg BitVec.toNat h
  rw [List.mem_range] at hm hn
  omega

/-- One byte that a predicate takes adds one to the count of the others it takes. -/
theorem countP_allBytes_ne {p : Byte → Bool} {a : Byte} (h : p a = true) :
    allBytes.countP p = allBytes.countP (fun b => p b && b != a) + 1 := by
  have herase := List.countP_erase p allBytes a
  rw [nodup_allBytes.erase_eq_filter, List.countP_filter] at herase
  have hpos : 0 < allBytes.countP p := List.countP_pos_iff.2 ⟨a, mem_allBytes a, h⟩
  simp only [mem_allBytes, h, and_self, if_true] at herase
  omega

/-- Settles O4: the counts that no parameter moves are computed; `NOP_OPCODE` is one byte more of the fixed rows and one fewer of
those outside them. -/
theorem commandByteCensus : Obligations.CommandByteCensus := by
  intro cfg hcfg
  have ⟨_, _, ⟨hge, h61, hA0, hE1, hE2⟩, _⟩ := hcfg
  have hread : allBytes.countP (fun b => Decoded.isRead (decode cfg b)) = 14 := by
    simp only [isRead_decode]; decide +kernel
  have hwrite : allBytes.countP (fun b => Decoded.isWrite (decode cfg b)) = 14 := by
    simp only [isWrite_decode]; decide +kernel
  have hreserved : allBytes.countP (fun b => Decoded.isReserved (decode cfg b)) = 36 := by
    simp only [isReserved_decode]; decide +kernel
  have hfixed : allBytes.countP (fun b => Decoded.isFixed (decode cfg b)) = 5 := by
    have hnop : fixedOpcodes.contains cfg.nopOpcode = false := by simp [fixedOpcodes, h61, hA0, hE1, hE2]
    have hothers (b : Byte) :
        ((fixedOpcodes.contains b || b == cfg.nopOpcode) && b != cfg.nopOpcode) = fixedOpcodes.contains b := by
      obtain rfl | hb := eq_or_ne b cfg.nopOpcode
      · rw [hnop, beq_self_eq_true, bne_self_eq_false, Bool.and_false]
      · rw [beq_false_of_ne hb, Bool.or_false, bne_iff_ne.2 hb, Bool.and_true]
    simp only [isFixed_decode hcfg]
    rw [countP_allBytes_ne (a := cfg.nopOpcode) (by simp)]
    simp only [hothers]
    decide +kernel
  have hillegal : allBytes.countP (fun b => Decoded.isIllegal (decode cfg b)) = 187 := by
    have hnop : inNoFixedRow cfg.nopOpcode = true := by simp [inNoFixedRow, fixedOpcodes, hge, h61, hA0, hE1, hE2]
    have hall : allBytes.countP inNoFixedRow = 188 := by decide +kernel
    have hsplit := countP_allBytes_ne hnop
    simp only [isIllegal_decode]
    omega
  exact ⟨(countP_allBytes _).trans hread, (countP_allBytes _).trans hwrite, (countP_allBytes _).trans hreserved,
    (countP_allBytes _).trans hfixed, (countP_allBytes _).trans hillegal⟩

end Sys2Proof.Machine

/-! PROOF. `step` and the command it runs (30_encoding.md R99), the final fault (60_exceptions.md R280), and the composite FRAME
as its micro-steps (R11, R99). -/

namespace Sys2Proof.Machine

/-! ### The step of each bus move is the decoded command's -/

/-- A byte that names a command runs it. -/
theorem fetchCommand_of_command {b : Byte} {s : State} {i : Instr} (hd : decode s.cfg b = .command i) :
    fetchCommand b s = .run i := by
  simp [fetchCommand, hd]

theorem step_commandByte {s : State} {b : Byte} {rest : List Stimulus} {i : Instr} (h : CommandByteNext s b rest)
    (hd : decode s.cfg b = .command i) : step s = exec i s := by
  obtain ⟨hf, hs, h0, hq⟩ := h
  simp [step, fetch, hf, hs, h0, hq, fetchCommand_of_command (s := s.taking rest) hd]

theorem step_dataByte {s : State} {b : Byte} {rest : List Stimulus} {i : Instr} (h : DataByteNext s b rest)
    (hc : s.cmd = some i) : step s = exec i s := by
  obtain ⟨hf, hs, h0, hq⟩ := h
  simp [step, fetch, hf, hs, h0, hq, hc]

theorem step_rise {s : State} {rest : List Stimulus} {i : Instr} (h : RiseNext s rest) (hc : s.cmd = some i) :
    step s = exec i s := by
  obtain ⟨hf, hs, hq⟩ := h
  simp [step, fetch, hf, hs, hq, hc]

theorem step_frame {s : State} {b : Byte} {ds : List Byte} {rest : List Stimulus} {i : Instr} (h : FrameNext s b ds rest)
    (hd : decode s.cfg b = .command i) : step s = exec i s := by
  obtain ⟨hf, hs, hq⟩ := h
  simp [step, fetch, hf, hs, hq, fetchCommand_of_command (s := (s.taking rest).openFrame) hd]

/-- Settles O7: in each of the four bus moves `fetch` hands the step to the command. -/
theorem stepRunsDecodedInstruction : Obligations.StepRunsDecodedInstruction := by
  intro s i b ds rest
  exact ⟨step_commandByte, step_dataByte, step_rise, step_frame⟩

/-! ### The frame of a table word (log 20) -/

/-- A table word of eight bits is one command byte. -/
theorem tableWordBytes_eight (w : Nat) : tableWordBytes 8 w = [BitVec.ofNat 8 w] := by
  simp [tableWordBytes]

/-- The frame of a word that names a command: its byte, then zeros up to `maxdata(cmd)`. -/
theorem tableWordFrame_eight {cfg : Config} {w : Nat} {i : Instr} (h : decode cfg (BitVec.ofNat 8 w) = .command i) :
    tableWordFrame cfg 8 w = BitVec.ofNat 8 w :: List.replicate (i.maxData cfg) 0x00#8 := by
  simp [tableWordFrame, tableWordBytes_eight, decodeFrame, h]

/-- The placed frame is the next step, and enabled. -/
theorem frameNext_withFetchWord {s : State} {w : Nat} {i : Instr} (h : decode s.cfg (BitVec.ofNat 8 w) = .command i) :
    FrameNext (s.withFetchWord 8 w) (BitVec.ofNat 8 w) (List.replicate (i.maxData s.cfg) 0x00#8) s.stimuli := by
  refine ⟨rfl, rfl, ?_⟩
  simp only [State.withFetchWord, State.placeFrame, tableWordFrame_eight h]

/-- Settles O8: the placed frame is enabled, and a whole frame of a command always gives a next state. -/
theorem tableWordIsTheNextInstruction : Obligations.TableWordIsTheNextInstruction := by
  intro s w i hd
  have hnext := frameNext_withFetchWord hd
  have hstep : step (s.withFetchWord 8 w) = exec i (s.withFetchWord 8 w) := step_frame hnext hd
  obtain ⟨hf, hs, hq⟩ := hnext
  exact ⟨hstep, _, hstep.trans (exec_frame hf hs hq)⟩

/-! ### After a fault (R280) -/

theorem step_fault {s : State} {r : Fault} (h : s.fault = some r) : step s = .fault r := by
  simp [step, fetch, h]

/-- Settles O14: `fetch` and `runCommand` look at the fault mark before the stimulus. -/
theorem faultIsFinal : Obligations.FaultIsFinal := by
  intro s r h
  exact ⟨step_fault h, fun _ => exec_fault h⟩

/-! ### The moves of a frame do not look at what is still to come

Each commutes with `taking`, so that the state inside a composite and the state between its micro-steps differ in `stimuli`
alone. -/

theorem State.taking_taking (s : State) (q q' : List Stimulus) : (s.taking q).taking q' = s.taking q' := rfl

theorem State.taking_stimuli_self (s : State) : s.taking s.stimuli = s := rfl

theorem State.arm_taking (s : State) (q : List Stimulus) : (s.taking q).arm = s.arm.taking q := by
  have hc : (s.taking q).armCond = s.armCond := rfl
  unfold State.arm
  rw [hc]
  split <;> rfl

theorem State.andThen_taking {f : State → State} (hf : ∀ s q, f (s.taking q) = (f s).taking q) (s : State)
    (q : List Stimulus) : (s.taking q).andThen f = (s.andThen f).taking q := by
  unfold State.andThen
  rw [State.taking_fault, hf]
  split <;> rfl

theorem commandByte_taking (i : Instr) (s : State) (q : List Stimulus) :
    commandByte i (ruleOf i) (s.taking q) = (commandByte i (ruleOf i) s).taking q := by
  cases i <;> rfl

theorem byteOrDraw_taking (bs : List Byte) (k : Nat) (s : State) (q : List Stimulus) :
    byteOrDraw bs k (s.taking q) = ((byteOrDraw bs k s).1, (byteOrDraw bs k s).2.taking q) := by
  unfold byteOrDraw
  split <;> rfl

theorem resp_taking (i : Instr) (k : Nat) (s : State) (q : List Stimulus) :
    (ruleOf i).resp k (s.taking q) = (((ruleOf i).resp k s).1, ((ruleOf i).resp k s).2.taking q) := by
  cases i with
  | readRegister a => exact byteOrDraw_taking (s.x a) k s q
  | readPayload =>
    simp only [ruleOf, readPayloadRule, respReadPayload, State.taking_rdl]
    split
    · exact byteOrDraw_taking _ k s q
    · rfl
  | _ => rfl

theorem dataByte_taking (i : Instr) (b : Byte) (s : State) (q : List Stimulus) :
    dataByte i (ruleOf i) b (s.taking q) = (dataByte i (ruleOf i) b s).taking q := by
  unfold dataByte
  rw [State.taking_cfg, State.taking_fidx, resp_taking]
  split <;> rfl

theorem dataBytes_taking (i : Instr) (ds : List Byte) (s : State) (q : List Stimulus) :
    dataBytes i (ruleOf i) ds (s.taking q) = (dataBytes i (ruleOf i) ds s).taking q := by
  induction ds generalizing s q with
  | nil => rfl
  | cons b ds ih => rw [dataBytes_cons, dataBytes_cons, dataByte_taking, State.andThen_taking ih]

theorem commitNamed_taking (d : Byte) (dbuf : List Byte) (s : State) (r : RegName) (q : List Stimulus) :
    commitNamed d dbuf (s.taking q) r = (commitNamed d dbuf s r).taking q := by
  cases r <;> rfl

theorem commit_taking (i : Instr) (dbuf : List Byte) (s : State) (q : List Stimulus) :
    (ruleOf i).commit dbuf (s.taking q) = ((ruleOf i).commit dbuf s).taking q := by
  cases i with
  | writeRegister a =>
    simp only [ruleOf, writeRegisterRule, commitWriteRegister]
    split
    · rfl
    · split
      · exact commitNamed_taking _ _ s _ q
      · rfl
  | readPayload => exact (apply_ite (State.taking · q) (s.rdl.isSome && !dbuf.isEmpty && s.cfg.readPayloadPops) s.rxPop s).symm
  | writePayload =>
    have hfull : (s.taking q).txFull = s.txFull := rfl
    simp only [ruleOf, writePayloadRule, commitWritePayload, hfull]
    split
    · rfl
    · split <;> rfl
  | _ => rfl

theorem riseStep_taking (i : Instr) (s : State) (q : List Stimulus) :
    riseStep (ruleOf i) (s.taking q) = (riseStep (ruleOf i) s).taking q := by
  rw [riseStep, closeFrame, State.taking_dbuf, commit_taking]
  exact State.andThen_taking (fun t q => State.arm_taking t.idleFrame q) _ q

theorem frameStep_taking (i : Instr) (ds : List Byte) (s : State) (q : List Stimulus) :
    frameStep i (ruleOf i) ds (s.taking q) = (frameStep i (ruleOf i) ds s).taking q := by
  have hopen : (s.taking q).openFrame = s.openFrame.taking q := rfl
  rw [frameStep, hopen, commandByte_taking, dataBytes_taking]
  exact State.andThen_taking (riseStep_taking i) _ q

/-! ### A composite and its micro-steps (R99) -/

/-- A run of no steps. -/
theorem run_zero (s : State) : Host.Core.run Sys2Proof.core 0 s = .next s := rfl

/-- The rest of a frame, byte by byte, from a state in which its command is latched: it ends with the fault of one of the
steps, or after all of them; the state is what the composite's data phase and closing edge leave. -/
theorem run_dataBytes_rise (i : Instr) (ds : List Byte) (rest : List Stimulus) {s : State} (hf : s.fault = none)
    (hs : s.fs ≠ .idle) (h0 : s.fidx ≠ 0) (hc : s.cmd = some i) :
    ∃ (k : Nat) (u : State), k ≤ ds.length + 1 ∧
      Host.Core.run Sys2Proof.core k (s.taking (ds.map .byte ++ .csnRise :: rest)) = .next u ∧
      u.taking rest = ((dataBytes i (ruleOf i) ds s).andThen (riseStep (ruleOf i))).taking rest ∧
      (u.fault = none → k = ds.length + 1 ∧ u.stimuli = rest) := by
  induction ds generalizing s with
  | nil =>
    have hstep := (step_rise (s := s.taking (.csnRise :: rest)) ⟨hf, hs, rfl⟩ hc).trans (exec_rise hf hs rfl)
    rw [State.taking_taking, riseStep_taking] at hstep
    refine ⟨1, _, le_rfl, run_succ_of_step 0 hstep, ?_, fun _ => ⟨rfl, rfl⟩⟩
    rw [dataBytes_nil, State.andThen_of_none _ hf, State.taking_taking]
  | cons b ds ih =>
    have hstep := (step_dataByte (s := s.taking (.byte b :: (ds.map .byte ++ .csnRise :: rest))) ⟨hf, hs, h0, rfl⟩ hc).trans
      (exec_data hf hs h0 rfl)
    rw [State.taking_taking, dataByte_taking] at hstep
    have hrun (k : Nat) := run_succ_of_step k hstep
    cases hb : (dataByte i (ruleOf i) b s).fault with
    | some r =>
      refine ⟨1, _, by simp, hrun 0, ?_, fun hu => ?_⟩
      · rw [dataBytes_cons, State.andThen_of_some _ hb, State.andThen_of_some _ hb, State.taking_taking]
      · simp [hb] at hu
    | none =>
      obtain ⟨-, hd⟩ | ⟨-, n, hd⟩ := dataByte_cases i b s
      · simp [hd] at hb
      · obtain ⟨k, u, hk, hu, hend, hnone⟩ := ih (s := dataByte i (ruleOf i) b s) hb (by rw [hd]; exact hs) (by rw [hd]; simp)
          (by rw [hd]; exact hc)
        refine ⟨k + 1, u, by simpa using hk, (hrun k).trans hu, ?_, fun hf' => ?_⟩
        · rw [dataBytes_cons, State.andThen_of_none _ hb, hend]
        · obtain ⟨rfl, hq⟩ := hnone hf'
          exact ⟨rfl, hq⟩

/-- FRAME of a command byte that is rejected: CSN_FALL and that byte. -/
theorem run_microSteps_rejects {s : State} {b : Byte} {r : Fault} (q : List Stimulus) (hf : s.fault = none)
    (hs : s.fs = .idle) (hd : rejection (decode s.cfg b) = some r) :
    Host.Core.run Sys2Proof.core 2 (s.taking (.csnFall :: .byte b :: q)) = .next (rejectByte r (s.taking q).openFrame) := by
  have hfall := step_csnFall (s := s.taking (.csnFall :: .byte b :: q)) hf hs rfl
  have hreject := step_rejects (s := (s.taking (.byte b :: q)).openFrame) (rest := q) hf (by simp) rfl rfl hd
  exact (run_succ_of_step 1 hfall).trans (run_succ_of_step 0 hreject)

/-- FRAME of a command: CSN_FALL, its command byte, then the rest byte by byte. -/
theorem run_microSteps_command {s : State} {b : Byte} {i : Instr} (q : List Stimulus) (k : Nat) (hf : s.fault = none)
    (hs : s.fs = .idle) (hd : decode s.cfg b = .command i) :
    Host.Core.run Sys2Proof.core (k + 2) (s.taking (.csnFall :: .byte b :: q)) =
      Host.Core.run Sys2Proof.core k ((commandByte i (ruleOf i) s.openFrame).taking q) := by
  have hfall := step_csnFall (s := s.taking (.csnFall :: .byte b :: q)) hf hs rfl
  have hbyte := (step_commandByte (s := (s.taking (.byte b :: q)).openFrame) ⟨hf, by simp, rfl, rfl⟩ hd).trans
    (exec_command hf (by simp) rfl rfl)
  have hcommand : commandByte i (ruleOf i) ((s.taking (.byte b :: q)).openFrame.taking q) =
      (commandByte i (ruleOf i) s.openFrame).taking q := commandByte_taking i s.openFrame q
  rw [run_succ_of_step (k + 1) hfall, ← hcommand]
  exact run_succ_of_step k hbyte

/-- FRAME of no bytes: CSN_FALL and CSN_RISE (R102). -/
theorem run_microSteps_nil {s : State} (rest : List Stimulus) (hf : s.fault = none) (hs : s.fs = .idle) :
    Host.Core.run Sys2Proof.core 2 (s.taking (.csnFall :: .csnRise :: rest)) =
      .next (s.taking rest).openFrame.idleFrame.arm := by
  have hfall := step_csnFall (s := s.taking (.csnFall :: .csnRise :: rest)) hf hs rfl
  have hrise := step_csnRise_empty (s := (s.taking (.csnRise :: rest)).openFrame) (rest := rest) hf (by simp) rfl rfl
  exact (run_succ_of_step 1 hfall).trans (run_succ_of_step 0 hrise)

/-- FRAME of no bytes closes at once (R102). -/
theorem step_frame_nil_next {s t : State} {rest : List Stimulus} (h : step s = .next t)
    (hq : s.stimuli = .frame [] :: rest) : t = (s.taking rest).openFrame.idleFrame.arm := by
  obtain ⟨-, hm⟩ := step_next h
  cases hm with
  | frameEmpty rest' hq' =>
    obtain rfl : rest' = rest := by simpa [hq] using hq'.symm
    rfl
  | _ => simp_all

/-- Settles O9: CSN_FALL and the command byte leave what the composite starts its data phase in, and the rest is
`run_dataBytes_rise`; the moves do not look at the steps still to come. -/
theorem frameIsItsMicroSteps : Obligations.FrameIsItsMicroSteps := by
  intro s t tx rest hf hs hq h
  cases tx with
  | nil =>
    obtain rfl := step_frame_nil_next h hq
    exact ⟨2, _, le_rfl, run_microSteps_nil rest hf hs, (State.arm_taking (s.taking rest).openFrame.idleFrame rest).symm,
      fun _ => ⟨rfl, rfl⟩⟩
  | cons b ds =>
    have hmicro : { s with stimuli := microSteps (b :: ds) ++ rest } =
        s.taking (.csnFall :: .byte b :: (ds.map .byte ++ .csnRise :: rest)) := by
      simp [microSteps, State.taking]
    rw [hmicro]
    obtain ⟨r, hd, rfl⟩ | ⟨i, hd, rfl⟩ := step_frame_next h hq
    · exact ⟨2, _, by simp, run_microSteps_rejects _ hf hs hd, rfl, fun hn => by simp at hn⟩
    · obtain ⟨x, hx, -⟩ := commandByte_eq i s.openFrame
      obtain ⟨k, u, hk, hu, hend, hnone⟩ := run_dataBytes_rise i ds rest (s := commandByte i (ruleOf i) s.openFrame)
        (by rw [hx]; exact hf) (by rw [hx]; simp) (by rw [hx]; simp) (by rw [hx])
      have hut : u.taking rest = frameStep i (ruleOf i) ds (s.taking rest) := hend.trans (frameStep_taking i ds s rest).symm
      refine ⟨k + 2, u, by simpa using hk, (run_microSteps_command _ k hf hs hd).trans hu, hut, fun ht => ?_⟩
      rw [← hut] at ht ⊢
      obtain ⟨rfl, rfl⟩ := hnone ht
      exact ⟨rfl, rfl⟩

end Sys2Proof.Machine

/-! PROOF. What a commit can do, said once, and from it what a step of any kind does to the block: which commands change what
(the frames of R120 to R163), and in which steps a register, a flag or `tx_armed` changes. -/

namespace Sys2Proof.Machine

/-! ### `arm()` (43_mode_sequencer.md R206) -/

/-- `arm()` does not change its own condition. -/
theorem State.armCond_arm (s : State) : s.arm.armCond = s.armCond :=
  State.armCond_congr (by simp) (by simp) (by simp) (by simp) (by simp)

/-- `arm()` keeps `tx_armed`, or sets it under `arm_cond()`. -/
theorem State.arm_txArmed_cases (s : State) :
    s.arm.txArmed = s.txArmed ∨ (s.arm.txArmed = true ∧ s.arm.armCond = true) := by
  rw [State.armCond_arm, State.arm_txArmed]
  cases s.armCond with
  | false => exact .inl (Bool.or_false _)
  | true => exact .inr ⟨Bool.or_true _, rfl⟩

/-- `arm_cond()` is the four conditions of R35. -/
theorem State.armCond_iff (s : State) :
    s.armCond = true ↔
      s.mode = .transmit ∧ s.ce = .high ∧ s.regs.config.getLsbD s.cfg.pwrUpBit = true ∧ s.txq ≠ [] := by
  simp [State.armCond, State.pwrUp, and_assoc]

/-- Settles O42: `arm()` is a test of `arm_cond()`. -/
theorem armingRule : Obligations.ArmingRule := by
  intro s
  refine ⟨fun hmode hce hpwr htxq => if_pos (s.armCond_iff.2 ⟨hmode, hce, hpwr, htxq⟩), fun h => ?_⟩
  exact if_neg (mt s.armCond_iff.1 h)

/-! ### The outcome events, and a block that is powered down (R207, R208, R210) -/

/-- Settles O43: the guard is `tx_armed` alone. -/
theorem transmissionOutcomeEvents : Obligations.TransmissionOutcomeEvents := by
  intro s rest hf
  refine ⟨fun hq harmed => ?_, fun hq harmed => ?_, ?_⟩
  · rw [step_evTxDs hf hq]
    exact if_pos harmed
  · rw [step_evMaxRt hf hq]
    exact if_pos harmed
  · rintro (hq | hq) hdis
    · rw [step_evTxDs hf hq]
      exact if_neg (by simp [hdis])
    · rw [step_evMaxRt hf hq]
      exact if_neg (by simp [hdis])

/-- With PWR_UP 0 nothing arms (R35). -/
theorem State.armCond_of_pwrUp {s : State} (h : s.pwrUp = false) : s.armCond = false := by
  simp [State.armCond, h]

/-- With PWR_UP 0 the block does not listen (R35). -/
theorem State.listening_of_pwrUp {s : State} (h : s.pwrUp = false) : s.listening = false := by
  simp [State.listening, h]

/-- Settles O46: both conditions ask for PWR_UP, the outcome event does not. -/
theorem poweredDownIsDeaf : Obligations.PoweredDownIsDeaf := by
  intro s rest hf hpwr
  have hdeaf := State.listening_of_pwrUp hpwr
  have hcond := State.armCond_of_pwrUp hpwr
  refine ⟨hdeaf, hcond, s.arm_eq_self hcond, fun p hp hq => ?_, fun hq harmed => ?_⟩
  · rw [step_evRx hf hq]
    have hdeaf' : (s.taking rest).listening = false := hdeaf
    exact stepEvRx_of_not_guard hp (by simp [hdeaf'])
  · obtain ⟨hsent, -⟩ := transmissionOutcomeEvents s rest hf
    rw [hsent hq harmed]
    exact congrArg Host.Outcome.next (State.arm_eq_self _ (State.armCond_of_pwrUp hpwr))

/-! ### What a commit can do (R121 to R163) -/

/-- The commits of the commands, one constructor for each kind of change. -/
inductive CommitEffect (dbuf : List Byte) (s : State) : Instr → State → Prop
  | nothing (i : Instr) : CommitEffect dbuf s i s
  | register (r : RegName) (d : Byte) (ds : List Byte) (hd : dbuf = d :: ds) :
      CommitEffect dbuf s (.writeRegister r.addr) (commitNamed d dbuf s r)
  | flushesTx : CommitEffect dbuf s .flushTx (commitFlushTx s)
  | flushesRx : CommitEffect dbuf s .flushRx (commitFlushRx s)
  | pops : CommitEffect dbuf s .readPayload s.rxPop
  | pushes (free : List Byte) (draws : Nat) (hlen : free.length = payloadWidth - dbuf.length)
      (hroom : s.txq.length ≠ s.cfg.fifoDepth) :
      CommitEffect dbuf s .writePayload { s with txq := s.txq ++ [dbuf ++ free], drawCount := draws }
  | overflows : CommitEffect dbuf s .writePayload (s.raise .txFifoOverflow)

theorem commit_effect (i : Instr) (dbuf : List Byte) (s : State) :
    CommitEffect dbuf s i ((ruleOf i).commit dbuf s) := by
  cases i with
  | writeRegister a =>
    cases dbuf with
    | nil => exact .nothing _
    | cons d ds =>
      cases ha : regAt a with
      | none =>
        have hc : (ruleOf (.writeRegister a)).commit (d :: ds) s = s := by
          simp [ruleOf, writeRegisterRule, commitWriteRegister, ha]
        rw [hc]
        exact .nothing _
      | some r =>
        obtain rfl := (regAt_eq_some_iff _ _).1 ha
        rw [writeRegister_commit_cons]
        exact .register r d ds rfl
  | readPayload =>
    simp only [ruleOf, readPayloadRule, commitReadPayload]
    split
    · exact .pops
    · exact .nothing _
  | writePayload =>
    simp only [ruleOf, writePayloadRule, commitWritePayload]
    split
    · exact .nothing _
    · split
      · exact .overflows
      · rename_i hfull
        exact .pushes _ _ (State.drawBytes_length s _) (by simpa [State.txFull] using hfull)
  | flushTx => exact .flushesTx
  | flushRx => exact .flushesRx
  | readRegister _ | nop => exact .nothing _

/-- A closing edge changes the block as its commit does, and arms; or it raises a fault and does nothing else. -/
theorem riseStep_effect (i : Instr) {u : State} (hf : u.fault = none) :
    (∃ v, CommitEffect u.dbuf u i v ∧ riseStep (ruleOf i) u = v.idleFrame.arm) ∨
    ∃ r, riseStep (ruleOf i) u = u.raise r := by
  rcases riseStep_cases i u hf with ⟨-, hr⟩ | ⟨-, -, hr⟩ | ⟨-, -, -, hr⟩
  · exact .inl ⟨_, commit_effect i u.dbuf u, hr⟩
  · exact .inr ⟨_, hr⟩
  · exact .inr ⟨_, hr⟩

theorem KeepsBlock.refl (s : State) : KeepsBlock s s := by constructor <;> rfl

theorem keepsBlock_taking (s : State) (q : List Stimulus) : KeepsBlock s (s.taking q) := by constructor <;> rfl

theorem keepsBlock_raise (s : State) (r : Fault) : KeepsBlock s (s.raise r) := by constructor <;> rfl

theorem KeepsBlock.armCond {s t : State} (h : KeepsBlock s t) : t.armCond = s.armCond :=
  State.armCond_congr h.cfg (congrArg RegFile.config h.regs) h.mode h.ce h.txq

/-! ### The frame of each command (R120 to R163) -/

/-- What a command does in any of its bus steps: it keeps the block and, unless it is READ_PAYLOAD, latches no entry; or it
commits and arms. -/
theorem exec_effect {i : Instr} {s t : State} (h : exec i s = .next t) :
    (KeepsBlock s t ∧ (i ≠ .readPayload → t.rdl = s.rdl ∨ t.rdl = none)) ∨
    ∃ u v, KeepsBlock s u ∧ CommitEffect u.dbuf u i v ∧ t = v.idleFrame.arm := by
  have hbefore := exec_before_rise (P := fun u => KeepsBlock s u ∧ (i ≠ .readPayload → u.rdl = s.rdl ∨ u.rdl = none)) h
    (fun rest => ⟨keepsBlock_taking s rest, fun _ => .inl rfl⟩)
    (fun u ⟨hk, _⟩ => ⟨hk.trans (keepsBlock_openFrame u u.stimuli), fun _ => .inr rfl⟩)
    (fun u ⟨hk, hr⟩ => ⟨hk.trans (keepsBlock_commandByte i u u.stimuli), fun hi => ?command⟩)
    (fun b u ⟨hk, hr⟩ => ⟨hk.trans (keepsBlock_dataByte i b u u.stimuli), fun hi => ?data⟩)
  case command =>
    obtain ⟨x, hx, hlatch, -⟩ := commandByte_eq i u
    rw [hx, hlatch hi]
    exact hr hi
  case data =>
    rcases dataByte_cases i b u with ⟨-, hd⟩ | ⟨-, n, hd⟩ <;> rw [hd] <;> exact hr hi
  obtain ht | ⟨u, ⟨hk, hr⟩, hf, rfl⟩ := hbefore
  · exact .inl ht
  · obtain ⟨v, hv, he⟩ | ⟨r, he⟩ := riseStep_effect i hf
    · exact .inr ⟨u, v, hk, hv, he⟩
    · rw [he]
      exact .inl ⟨hk.trans (keepsBlock_raise u r), hr⟩

/-- What the closing edge adds to a commit leaves every reading as it is. -/
theorem State.x_idleFrame_arm (s : State) : s.idleFrame.arm.x = s.x :=
  State.x_congr (by simp) (by simp) (by simp) (by simp) (by simp) (by simp) (by simp)

/-- The arming at a closing edge: as the commit left it, or set under `arm_cond()`. -/
theorem idleFrame_arm_txArmed (s : State) :
    s.idleFrame.arm.txArmed = s.txArmed ∨ (s.idleFrame.arm.txArmed = true ∧ s.idleFrame.arm.armCond = true) :=
  s.idleFrame.arm_txArmed_cases

theorem armCond_idleFrame_arm (s : State) : s.idleFrame.arm.armCond = s.armCond :=
  s.idleFrame.armCond_arm

/-- Settles O36: a read and NOP commit nothing. -/
theorem readsAndNopFrame : Obligations.ReadsAndNopFrame := by
  intro i s t hi h
  have hne : i ≠ .readPayload := by rintro rfl; simp at hi
  obtain ⟨hk, hrdl⟩ | ⟨u, v, hk, hv, rfl⟩ := exec_effect h
  · exact ⟨hk.cfg, hk.regs, hk.rxDr, hk.txDs, hk.maxRt, hk.mode, hk.ce, hk.txq, hk.rxq, .inl hk.txArmed, hrdl hne⟩
  · obtain rfl : v = u := by
      obtain rfl | ⟨a, rfl⟩ := hi <;> cases hv <;> rfl
    have harm := idleFrame_arm_txArmed v
    rw [armCond_idleFrame_arm, hk.armCond, hk.txArmed] at harm
    exact ⟨by simp [hk.cfg], by simp [hk.regs], by simp [hk.rxDr], by simp [hk.txDs], by simp [hk.maxRt], by simp [hk.mode],
      by simp [hk.ce], by simp [hk.txq], by simp [hk.rxq], harm, .inr (by simp)⟩

/-- A register's commit changes no other register's reading. -/
theorem commitNamed_readReg {r r' : RegName} (d : Byte) (dbuf : List Byte) (s : State) (h : r' ≠ r) :
    (commitNamed d dbuf s r).readReg r' = s.readReg r' := by
  cases r <;> cases r' <;> try rfl
  all_goals exact absurd rfl h

theorem commitNamed_x {r : RegName} {a : RegAddr} (d : Byte) (dbuf : List Byte) (s : State) (h : a ≠ r.addr) :
    (commitNamed d dbuf s r).x a = s.x a := by
  unfold State.x
  cases ha : regAt a with
  | none => rfl
  | some r' =>
    obtain rfl := (regAt_eq_some_iff _ _).1 ha
    exact commitNamed_readReg d dbuf s fun hr => h (congrArg RegName.addr hr)

/-- Of the registers, STATUS alone reaches the flags (R123). -/
theorem commitNamed_flags {r : RegName} (d : Byte) (dbuf : List Byte) (s : State) (h : r ≠ .status) :
    (commitNamed d dbuf s r).rxDr = s.rxDr ∧ (commitNamed d dbuf s r).txDs = s.txDs ∧
    (commitNamed d dbuf s r).maxRt = s.maxRt := by
  cases r with
  | status => exact absurd rfl h
  | _ => exact ⟨rfl, rfl, rfl⟩

/-- No register write reaches a FIFO, the control line, the arming or the parameters (R121). -/
theorem commitNamed_frame (r : RegName) (d : Byte) (dbuf : List Byte) (s : State) :
    (commitNamed d dbuf s r).cfg = s.cfg ∧ (commitNamed d dbuf s r).ce = s.ce ∧ (commitNamed d dbuf s r).txq = s.txq ∧
    (commitNamed d dbuf s r).rxq = s.rxq ∧ (commitNamed d dbuf s r).txArmed = s.txArmed := by
  cases r <;> exact ⟨rfl, rfl, rfl, rfl, rfl⟩

/-- Settles O37: the commit is that of the register at the address, and no other register's reading, mode or flag is in it. -/
theorem writeRegisterFrameRule : Obligations.WriteRegisterFrameRule := by
  intro a s t h
  obtain ⟨hk, hrdl⟩ | ⟨u, v, hk, hv, rfl⟩ := exec_effect h
  · exact ⟨hk.cfg, hk.ce, hk.txq, hk.rxq, fun a' _ => by rw [hk.x], fun _ => hk.mode,
      fun _ => ⟨hk.rxDr, hk.txDs, hk.maxRt⟩, .inl hk.txArmed, hrdl (by simp)⟩
  · have harm := idleFrame_arm_txArmed v
    rw [State.x_idleFrame_arm, ← hk.cfg, ← hk.ce, ← hk.txq, ← hk.rxq, ← hk.x, ← hk.mode, ← hk.rxDr, ← hk.txDs, ← hk.maxRt,
      ← hk.txArmed]
    cases hv with
    | nothing => exact ⟨by simp, by simp, by simp, by simp, by simp, by simp, by simp, harm, .inr (by simp)⟩
    | register r d ds hd =>
      obtain ⟨hcfg, hce, htxq, hrxq, harmed⟩ := commitNamed_frame r d u.dbuf u
      rw [harmed] at harm
      refine ⟨by simp [hcfg], by simp [hce], by simp [htxq], by simp [hrxq], fun a' ha => commitNamed_x d u.dbuf u ha,
        fun ha => ?mode, fun ha => ?flags, harm, .inr (by simp)⟩
      case mode =>
        have hr : r ≠ .config := by rintro rfl; exact ha rfl
        simpa using commitNamed_mode d u.dbuf u hr
      case flags =>
        have hr : r ≠ .status := by rintro rfl; exact ha rfl
        simpa using commitNamed_flags d u.dbuf u hr

/-- Settles O38: each of the four commits is one change of one FIFO. -/
theorem fifoCommandsFrame : Obligations.FifoCommandsFrame := by
  intro i s t hi h
  obtain ⟨hk, hrdl⟩ | ⟨u, v, hk, hv, rfl⟩ := exec_effect h
  · exact ⟨hk.cfg, hk.regs, hk.rxDr, hk.txDs, hk.maxRt, hk.mode, hk.ce, fun _ _ => hk.txq, fun _ _ => hk.rxq,
      fun _ => .inl hk.txq, fun _ => .inl hk.txq, fun _ => .inl hk.rxq, fun _ => .inl hk.rxq, .inl hk.txArmed, hrdl⟩
  · have harm := idleFrame_arm_txArmed v
    rw [← hk.cfg, ← hk.regs, ← hk.rxDr, ← hk.txDs, ← hk.maxRt, ← hk.mode, ← hk.ce, ← hk.txq, ← hk.rxq, ← hk.txArmed]
    have harmed : v.idleFrame.arm.txArmed = u.txArmed ∨
        (v.idleFrame.arm.txArmed = true ∧ v.idleFrame.arm.armCond = true) ∨
        (i = .flushTx ∧ v.idleFrame.arm.txArmed = false) := by
      cases hv with
      | register => simp at hi
      | flushesTx => exact .inr (harm.symm.imp_right fun hclear => ⟨rfl, hclear⟩)
      | nothing | flushesRx | pops | pushes | overflows => exact harm.imp_right .inl
    cases hv with
    | register => simp at hi
    | nothing | flushesTx | flushesRx | pops | pushes | overflows => simpa using harmed

/-! ### What a step of any kind does to the block -/

/-- The next step is a closing edge of the command `i` with the data bytes `dbuf`: of its open frame, or of a whole one. -/
def Commits (s : State) (i : Instr) (dbuf : List Byte) : Prop :=
  (∃ rest, s.stimuli = .csnRise :: rest ∧ s.cmd = some i ∧ dbuf = s.dbuf) ∨
  (∃ b rest, s.stimuli = .frame (b :: dbuf) :: rest ∧ decode s.cfg b = .command i)

/-- A closing edge of a register's write with data commits that write. -/
theorem Commits.commitsWrite {s : State} {r : RegName} {d : Byte} {ds dbuf : List Byte}
    (h : Commits s (.writeRegister r.addr) dbuf) (hd : dbuf = d :: ds) : CommitsWrite s r := by
  obtain ⟨rest, hq, hc, rfl⟩ | ⟨b, rest, hq, hb⟩ := h
  · exact .inl ⟨_, rest, hq, hc, regAt_addr r, by simp [hd]⟩
  · exact .inr ⟨b, dbuf, rest, _, hq, hb, regAt_addr r, by simp [hd]⟩

/-- The changes that a step may make to the block: none; a commit and `arm()`; the control line; an event. -/
inductive StepEffect (s : State) : State → Prop
  | keeps {t : State} (hk : KeepsBlock s t) : StepEffect s t
  | arms {u : State} (hk : KeepsBlock s u) : StepEffect s u.arm
  | commits {i : Instr} {u v : State} (hc : Commits s i u.dbuf) (hk : KeepsBlock s u) (hv : CommitEffect u.dbuf u i v) :
      StepEffect s v.idleFrame.arm
  | ce (level : Level) (rest : List Stimulus) : StepEffect s ({ s.taking rest with ce := level } : State).arm
  | evTxDs (rest : List Stimulus) (hq : s.stimuli = .evTxDs :: rest) :
      StepEffect s ({ (s.taking rest).txPop with txDs := true, txArmed := false } : State).arm
  | evMaxRt (rest : List Stimulus) (hq : s.stimuli = .evMaxRt :: rest) :
      StepEffect s ({ s.taking rest with maxRt := true, txArmed := false } : State).arm
  | evRx (p : List Byte) (rest : List Stimulus) (hq : s.stimuli = .evRx p :: rest) :
      StepEffect s ({ (s.taking rest).rxPush ⟨0, p⟩ with rxDr := true } : State).arm

/-- A closing edge at the end of steps that keep the block. -/
theorem stepEffect_rise {s u : State} {i : Instr} (hc : Commits s i u.dbuf) (hk : KeepsBlock s u) (hf : u.fault = none) :
    StepEffect s (riseStep (ruleOf i) u) := by
  obtain ⟨v, hv, he⟩ | ⟨r, he⟩ := riseStep_effect i hf <;> rw [he]
  · exact .commits hc hk hv
  · exact .keeps (hk.trans (keepsBlock_raise u r))

theorem step_effect {s t : State} (h : step s = .next t) : StepEffect s t := by
  obtain ⟨hf, hm⟩ := step_next h
  cases hm with
  | waits => exact .keeps (.refl s)
  | opens rest => exact .keeps (keepsBlock_openFrame s rest)
  | rejects b rest r => exact .keeps (keepsBlock_rejectByte r s rest)
  | command i b rest => exact .keeps (keepsBlock_commandByte i s rest)
  | data i b rest => exact .keeps (keepsBlock_dataByte i b s rest)
  | rises i rest hq hs hc => exact stepEffect_rise (.inl ⟨rest, hq, hc, rfl⟩) (keepsBlock_taking s rest) hf
  | risesEmpty rest => exact .arms (u := (s.taking rest).idleFrame) (by constructor <;> rfl)
  | frameEmpty rest => exact .arms (u := (s.taking rest).openFrame.idleFrame) (by constructor <;> rfl)
  | frameRejects b ds rest r =>
    exact .keeps ((keepsBlock_openFrame s rest).trans (keepsBlock_rejectByte r (s.taking rest).openFrame rest))
  | frameRuns i b ds rest hq hs hd =>
    obtain ⟨u, hk, ⟨-, hr⟩ | ⟨hu, rfl, hr⟩⟩ := frameStep_cases i ds (s := s.taking rest) hf <;> rw [hr]
    · exact .keeps ((keepsBlock_taking s rest).trans hk)
    · exact stepEffect_rise (.inr ⟨b, rest, hq, hd⟩) ((keepsBlock_taking s rest).trans hk) hu
  | ce level rest => exact .ce level rest
  | evTxDs rest hq => exact .evTxDs rest hq
  | evMaxRt rest hq => exact .evMaxRt rest hq
  | evRx p rest hq => exact .evRx p rest hq

end Sys2Proof.Machine

/-! PROOF. The rules of the whole machine: in which steps a flag (10_state.md R26), a stored register (20_memory.md R76) or
`tx_armed` (R34) changes, and what a faulting micro-step leaves (60_exceptions.md R280). -/

namespace Sys2Proof.Machine

/-! ### The flags (R26) -/

/-- No commit sets a flag. -/
theorem CommitEffect.flags_stay_clear {dbuf : List Byte} {s v : State} {i : Instr} (h : CommitEffect dbuf s i v) :
    (s.rxDr = false → v.rxDr = false) ∧ (s.txDs = false → v.txDs = false) ∧ (s.maxRt = false → v.maxRt = false) := by
  cases h with
  | register r d ds =>
    by_cases hr : r = .status
    · subst hr
      simp +contextual [commitNamed]
    · simp [commitNamed_flags d dbuf s hr]
  | _ => simp

/-- Of the commits, a STATUS write with data alone reaches a flag. -/
theorem CommitEffect.flags_of_ne_status {dbuf : List Byte} {s v : State} {i : Instr} (h : CommitEffect dbuf s i v)
    (hne : ∀ d ds, dbuf = d :: ds → i ≠ .writeRegister RegName.status.addr) :
    v.rxDr = s.rxDr ∧ v.txDs = s.txDs ∧ v.maxRt = s.maxRt := by
  cases h with
  | register r d ds hd => exact commitNamed_flags d dbuf s (by rintro rfl; exact hne d ds hd rfl)
  | _ => simp

/-- Settles O48: an event sets its own flag, a commit sets none, and the one commit that clears one is that of STATUS. -/
theorem flagsSetByEventsClearedByStatusWrites : Obligations.FlagsSetByEventsClearedByStatusWrites := by
  intro s t h
  cases step_effect h with
  | keeps hk => simp_all [hk.rxDr, hk.txDs, hk.maxRt]
  | arms hk => simp_all [hk.rxDr, hk.txDs, hk.maxRt]
  | ce | evTxDs | evMaxRt | evRx => simp_all
  | @commits i u v hc hk hv =>
    rw [← hk.rxDr, ← hk.txDs, ← hk.maxRt]
    obtain ⟨hrx, htx, hmax⟩ := hv.flags_stay_clear
    refine ⟨by simp_all, by simp_all, by simp_all, fun hclear => by_contra fun hno => ?_⟩
    obtain ⟨erx, etx, emax⟩ := hv.flags_of_ne_status fun d ds hd hi => hno (Commits.commitsWrite (hi ▸ hc) hd)
    simp_all

/-! ### The stored registers (R76) -/

/-- A stored register's reading is in the register file alone. -/
theorem State.readReg_congr {s t : State} {r : RegName} (h : t.regs = s.regs) (h7 : r ≠ .status) (h17 : r ≠ .fifoStatus) :
    t.readReg r = s.readReg r := by
  cases r with
  | status => exact absurd rfl h7
  | fifoStatus => exact absurd rfl h17
  | _ => simp [State.readReg, h]

/-- Of the commits, only a register's own write with data changes its reading. -/
theorem CommitEffect.readReg {dbuf : List Byte} {s v : State} {i : Instr} {r : RegName} (h : CommitEffect dbuf s i v)
    (h7 : r ≠ .status) (h17 : r ≠ .fifoStatus) (hne : ∀ d ds, dbuf = d :: ds → i ≠ .writeRegister r.addr) :
    v.readReg r = s.readReg r := by
  cases h with
  | register r' d ds hd => exact commitNamed_readReg d dbuf s (by rintro rfl; exact hne d ds hd rfl)
  | _ => exact State.readReg_congr rfl h7 h17

/-- No commit changes the parameters. -/
theorem CommitEffect.cfg {dbuf : List Byte} {s v : State} {i : Instr} (h : CommitEffect dbuf s i v) : v.cfg = s.cfg := by
  cases h with
  | register r d ds => exact (commitNamed_frame r d dbuf s).1
  | _ => rfl

/-- The parameters are the same after every step (R6). -/
theorem step_cfg {s t : State} (h : step s = .next t) : t.cfg = s.cfg := by
  cases step_effect h with
  | keeps hk => exact hk.cfg
  | arms hk => simp [hk.cfg]
  | commits hc hk hv => simp [hv.cfg, hk.cfg]
  | ce | evTxDs | evMaxRt | evRx => simp

/-- Settles O50: the register file changes in a commit alone, and there in the register written. -/
theorem registersChangeOnlyByTheirWrites : Obligations.RegistersChangeOnlyByTheirWrites := by
  intro s t h
  refine ⟨step_cfg h, fun b => by rw [step_cfg h], fun r h7 h17 hne => ?_⟩
  have hregs (he : t.regs = s.regs) : CommitsWrite s r := absurd (State.readReg_congr he h7 h17) hne
  cases step_effect h with
  | keeps hk => exact hregs hk.regs
  | arms hk => exact hregs (by simp [hk.regs])
  | ce | evTxDs | evMaxRt | evRx => exact hregs (by simp)
  | @commits i u v hc hk hv =>
    by_contra hno
    apply hne
    calc v.idleFrame.arm.readReg r = v.readReg r := State.readReg_congr (by simp) h7 h17
      _ = u.readReg r := hv.readReg h7 h17 fun d ds hd hi => hno (Commits.commitsWrite (hi ▸ hc) hd)
      _ = s.readReg r := State.readReg_congr hk.regs h7 h17

/-! ### The arming (R34) -/

/-- Of the commits, FLUSH_TX alone reaches `tx_armed`. -/
theorem CommitEffect.txArmed {dbuf : List Byte} {s v : State} {i : Instr} (h : CommitEffect dbuf s i v)
    (hne : i ≠ .flushTx) : v.txArmed = s.txArmed := by
  cases h with
  | register r d ds =>
    obtain ⟨-, -, -, -, harmed⟩ := commitNamed_frame r d dbuf s
    exact harmed
  | flushesTx => exact absurd rfl hne
  | _ => rfl

/-- No commit sets `tx_armed`. -/
theorem CommitEffect.txArmed_le {dbuf : List Byte} {s v : State} {i : Instr} (h : CommitEffect dbuf s i v)
    (hv : v.txArmed = true) : s.txArmed = true := by
  by_cases hi : i = .flushTx
  · subst hi
    cases h with
    | nothing => exact hv
    | flushesTx => cases hv
  · rwa [← h.txArmed hi]

/-- `arm()` sets `tx_armed` only under `arm_cond()`. -/
theorem State.armCond_of_arm {s : State} (h0 : s.txArmed = false) (h : s.arm.txArmed = true) : s.arm.armCond = true := by
  obtain he | ⟨-, hc⟩ := s.arm_txArmed_cases
  · simp [he, h0] at h
  · exact hc

/-- `arm()` never clears `tx_armed`. -/
theorem State.txArmed_of_arm {s : State} (h : s.arm.txArmed = false) : s.txArmed = false := by
  simp_all [State.arm_txArmed]

/-- Settles O49: `arm()` is what sets `tx_armed`; the outcome events and FLUSH_TX are what clears it. -/
theorem armedUntilOutcomeOrFlush : Obligations.ArmedUntilOutcomeOrFlush := by
  intro s t h
  cases step_effect h with
  | keeps hk => simp_all [hk.txArmed]
  | arms hk =>
    refine ⟨fun h0 => State.armCond_of_arm (hk.txArmed.trans h0), fun h1 h0 => ?_⟩
    exact absurd ((hk.txArmed.symm.trans (State.txArmed_of_arm h0)).symm.trans h1) (by simp)
  | ce level rest =>
    refine ⟨fun h0 => State.armCond_of_arm h0, fun h1 h0 => ?_⟩
    exact absurd ((State.txArmed_of_arm h0).symm.trans h1) (by simp)
  | evTxDs rest hq => exact ⟨fun _ => State.armCond_of_arm rfl, fun _ _ => .inl (by simp [hq])⟩
  | evMaxRt rest hq => exact ⟨fun _ => State.armCond_of_arm rfl, fun _ _ => .inr (.inl (by simp [hq]))⟩
  | evRx p rest hq =>
    refine ⟨fun h0 => State.armCond_of_arm h0, fun h1 h0 => ?_⟩
    exact absurd ((State.txArmed_of_arm h0).symm.trans h1) (by simp)
  | @commits i u v hc hk hv =>
    rw [← hk.txArmed]
    refine ⟨fun h0 => State.armCond_of_arm ?_, fun h1 h0 => ?_⟩
    · exact Bool.eq_false_iff.2 fun hset => by simp [hv.txArmed_le hset] at h0
    · have hflush : i = .flushTx := by_contra fun hi => by
        rw [← hv.txArmed hi, show v.txArmed = false from State.txArmed_of_arm (s := v.idleFrame) h0] at h1
        cases h1
      subst hflush
      obtain ⟨rest, hq, hcmd, -⟩ | ⟨b, rest, hq, hd⟩ := hc
      · exact .inr (.inr (.inl ⟨rest, hq, hcmd⟩))
      · exact .inr (.inr (.inr ⟨b, _, rest, hq, hd⟩))

/-! ### A faulting micro-step (R280) -/

/-- Settles O16: a rejected command byte has been answered; a data byte or a closing edge that faults sets the mark alone; no
other micro-step raises a fault. -/
theorem faultingStepChangesNothingElse : Obligations.FaultingStepChangesNothingElse := by
  intro s t r hmicro h ht
  obtain ⟨hf, hm⟩ := step_next h
  cases hm with
  | rejects b rest r' hq hs h0 hd =>
    obtain rfl : r' = r := Option.some.inj ht
    exact .inl ⟨b, rest, ⟨hf, hs, h0, hq⟩, rfl⟩
  | data i b rest hq hs h0 hc =>
    right
    refine ⟨fun b' rest' ⟨_, _, h0', _⟩ => h0 h0', ?_⟩
    obtain ⟨-, hd⟩ | ⟨-, n, hd⟩ := dataByte_cases i b (s.taking rest) <;> rw [hd] at ht ⊢
    · obtain rfl := Option.some.inj ht
      simp [State.raise, State.taking, hq]
    · simp [hf] at ht
  | rises i rest hq hs hc =>
    right
    refine ⟨fun b' rest' ⟨_, _, _, hq'⟩ => by simp [hq] at hq', ?_⟩
    obtain ⟨hn, hr⟩ | ⟨-, -, hr⟩ | ⟨-, -, -, hr⟩ := riseStep_cases i (s.taking rest) hf <;> rw [hr] at ht ⊢
    · rw [State.arm_fault, State.idleFrame_fault, hn] at ht
      cases ht
    · obtain rfl := Option.some.inj ht
      simp [State.raise, State.taking, hq]
    · obtain rfl := Option.some.inj ht
      simp [State.raise, State.taking, hq]
  | frameEmpty rest hq => exact absurd hq (hmicro _ _)
  | frameRejects b ds rest r' hq => exact absurd hq (hmicro _ _)
  | frameRuns i b ds rest hq => exact absurd hq (hmicro _ _)
  | waits | opens | command | risesEmpty | ce | evTxDs | evMaxRt | evRx => simp [hf] at ht

end Sys2Proof.Machine

/-! PROOF. The invariant (10_state.md R42): it holds after power-on, every step keeps it, so every run keeps it. It has three
parts: the clauses of the block, which a commit keeps; those of the frame sequencer, which hold of themselves between frames;
and the rule of `arm()`, which `arm()` makes true again. -/

namespace Sys2Proof.Machine

/-! ### The three parts -/

/-- The clauses that speak of the parameters, the registers, the mode and the FIFOs. -/
structure InvBlock (s : State) : Prop where
  cfgWf : s.cfg.wf
  inv1 : Inv1 s
  inv2 : Inv2 s
  inv3 : Inv3 s
  inv4 : Inv4 s
  widths : s.regs.widths s.cfg.aw
  entries : InvEntries s

/-- The clauses that speak of the frame sequencer. -/
structure InvSequencer (s : State) : Prop where
  inv5 : Inv5 s
  inv6 : Inv6 s
  inv7 : Inv7 s
  cmdWf : InvCmd s

theorem Inv.block {s : State} (h : Inv s) : InvBlock s :=
  ⟨h.cfgWf, h.inv1, h.inv2, h.inv3, h.inv4, h.widths, h.entries⟩

theorem Inv.sequencer {s : State} (h : Inv s) : InvSequencer s :=
  ⟨h.inv5, h.inv6, h.inv7, h.cmdWf⟩

theorem InvBlock.inv {s : State} (h : InvBlock s) (hs : InvSequencer s) (ha : InvArmed s) : Inv s :=
  ⟨h.cfgWf, h.inv1, h.inv2, h.inv3, h.inv4, hs.inv5, hs.inv6, hs.inv7, hs.cmdWf, h.widths, h.entries, ha⟩

/-- `arm()` establishes its own rule, and arms only with an entry to send. -/
theorem InvBlock.arm {s : State} (h : InvBlock s) (hs : InvSequencer s) : Inv s.arm := by
  cases hc : s.armCond with
  | false =>
    rw [s.arm_eq_self hc]
    exact h.inv hs fun hc' => by simp [hc] at hc'
  | true =>
    obtain ⟨-, -, -, htxq⟩ := s.armCond_iff.1 hc
    rw [State.arm, if_pos hc]
    exact ⟨h.cfgWf, h.inv1, h.inv2, h.inv3, fun _ => htxq, hs.inv5, hs.inv6, hs.inv7, hs.cmdWf, h.widths, h.entries, fun _ => rfl⟩

/-- The block's clauses are about what `KeepsBlock` keeps. -/
theorem InvBlock.of_keeps {s t : State} (h : InvBlock s) (hk : KeepsBlock s t) : InvBlock t where
  cfgWf := hk.cfg ▸ h.cfgWf
  inv1 := by rw [Inv1, State.primRx, hk.mode, hk.regs, hk.cfg]; exact h.inv1
  inv2 := by rw [Inv2, hk.txq, hk.rxq, hk.cfg]; exact h.inv2
  inv3 := by rw [Inv3, hk.rxq]; exact h.inv3
  inv4 := by rw [Inv4, hk.txArmed, hk.txq]; exact h.inv4
  widths := by rw [hk.regs, hk.cfg]; exact h.widths
  entries := by rw [InvEntries, hk.txq, hk.rxq]; exact h.entries

/-- A step that keeps the block keeps the invariant if it keeps the sequencer's clauses. -/
theorem Inv.of_keeps {s t : State} (h : Inv s) (hk : KeepsBlock s t) (ht : InvSequencer t) : Inv t := by
  refine (h.block.of_keeps hk).inv ht ?_
  rw [InvArmed, hk.armCond, hk.txArmed]
  exact h.armed

/-! ### Power-on -/

theorem inv_powerOn {cfg : Config} {image : RegFile} (ce : Level) (hcfg : cfg.wf) (hw : image.widths cfg.aw) :
    Inv (State.powerOn cfg image ce) where
  cfgWf := hcfg
  inv1 := by
    simp only [Inv1, State.powerOn, State.primRx]
    split <;> simp_all
  inv2 := ⟨Nat.zero_le _, Nat.zero_le _⟩
  inv3 := by simp [Inv3, State.powerOn]
  inv4 := by simp [Inv4, State.powerOn]
  inv5 := ⟨rfl, rfl, rfl, rfl⟩
  inv6 := by simp [Inv6, State.powerOn]
  inv7 := by simp [Inv7, State.powerOn]
  cmdWf := by simp [InvCmd, State.powerOn]
  widths := hw
  entries := by simp [InvEntries, State.powerOn]
  armed := by simp [InvArmed, State.armCond, State.powerOn]

/-- Settles O52: nothing is queued, latched or armed after power-on, and the mode is read off CONFIG. -/
theorem invariantAtReset : Obligations.InvariantAtReset :=
  ⟨inv_powerOn .low (by decide) ⟨rfl, rfl⟩, fun _ _ ce hcfg hw => inv_powerOn ce hcfg hw⟩

/-! ### The frame sequencer along a frame -/

/-- With nothing latched, at the start of a frame or between frames, the sequencer's clauses hold. -/
theorem invSequencer_of_unlatched {s : State} (hfs : s.fs ≠ .data) (hfidx : s.fidx = 0) (hcmd : s.cmd = none)
    (hdbuf : s.dbuf = []) (hrdl : s.rdl = none) : InvSequencer s where
  inv5 := by
    unfold Inv5
    split
    · exact ⟨hfidx, hcmd, hdbuf, hrdl⟩
    · exact ⟨hfidx, hcmd, hdbuf, hrdl⟩
    · exact absurd (by assumption) hfs
  inv6 := by simp [Inv6, hcmd]
  inv7 := by simp [Inv7, hrdl]
  cmdWf := by simp [InvCmd, hcmd]

theorem invSequencer_openFrame (s : State) : InvSequencer s.openFrame :=
  invSequencer_of_unlatched (by simp) rfl rfl rfl rfl

theorem invSequencer_idleFrame (s : State) : InvSequencer s.idleFrame :=
  invSequencer_of_unlatched (by simp) rfl rfl rfl rfl

/-- At index 0 nothing is latched (INV5). -/
theorem InvSequencer.unlatched {s : State} (h : InvSequencer s) (h0 : s.fidx = 0) : s.dbuf = [] ∧ s.rdl = none := by
  have h5 := h.inv5
  unfold Inv5 at h5
  split at h5
  · obtain ⟨-, -, hdbuf, hrdl⟩ := h5
    exact ⟨hdbuf, hrdl⟩
  · obtain ⟨-, -, hdbuf, hrdl⟩ := h5
    exact ⟨hdbuf, hrdl⟩
  · omega

/-- A frame with a latched command is in its data phase (INV5). -/
theorem InvSequencer.dataPhase {s : State} {i : Instr} (h : InvSequencer s) (hc : s.cmd = some i) :
    s.fs = .data ∧ 1 ≤ s.fidx ∧ s.dbuf.length = s.fidx - 1 := by
  have h5 := h.inv5
  unfold Inv5 at h5
  split at h5
  · simp [hc] at h5
  · simp [hc] at h5
  · obtain ⟨h1, -, hlen⟩ := h5
    exact ⟨by assumption, h1, hlen⟩

/-- INV5 in the data phase. -/
theorem inv5_of_data {s : State} (hfs : s.fs = .data) (h1 : 1 ≤ s.fidx) (hc : s.cmd.isSome = true)
    (hlen : s.dbuf.length = s.fidx - 1) : Inv5 s := by
  unfold Inv5
  rw [hfs]
  exact ⟨h1, hc, hlen⟩

/-- The fault mark is in no clause. -/
theorem InvSequencer.raise {s : State} (h : InvSequencer s) (r : Fault) : InvSequencer (s.raise r) :=
  ⟨h.inv5, h.inv6, h.inv7, h.cmdWf⟩

/-- A command byte latches a well-formed command (R98) and, for READ_PAYLOAD, the head of the RX FIFO. -/
theorem InvSequencer.commandByte {i : Instr} {s : State} (h : InvSequencer s) (h0 : s.fidx = 0) (hi : i.wf = true) :
    InvSequencer (commandByte i (ruleOf i) s) := by
  obtain ⟨hdbuf, hrdl⟩ := h.unlatched h0
  obtain ⟨x, hx, hother, hread⟩ := commandByte_eq i s
  rw [hx]
  refine ⟨inv5_of_data rfl (by simp) rfl (by simp [hdbuf, h0]), by simp [Inv6, hdbuf], fun hlatched => ?_,
    by simpa [InvCmd] using hi⟩
  by_cases hp : i = .readPayload
  · subst hp
    obtain rfl := hread rfl
    have hne : s.rxq ≠ [] := by simpa using hlatched
    exact ⟨rfl, hne, rfl⟩
  · rw [hother hp, hrdl] at hlatched
    cases hlatched

/-- A data byte is counted and kept within `maxdata(cmd)`, or raises a fault (R66). -/
theorem InvSequencer.dataByte {i : Instr} {s : State} (h : InvSequencer s) (hc : s.cmd = some i) (b : Byte) :
    InvSequencer (dataByte i (ruleOf i) b s) := by
  obtain ⟨hfs, h1, hlen⟩ := h.dataPhase hc
  obtain ⟨-, hd⟩ | ⟨hk, n, hd⟩ := dataByte_cases i b s <;> rw [hd]
  · exact h.raise _
  · refine ⟨inv5_of_data hfs (by simp) (by simp [hc]) ?_, ?_, h.inv7, h.cmdWf⟩
    · rw [List.length_append, hlen, List.length_singleton]
      exact Nat.sub_add_cancel h1
    · simp only [Inv6, hc, Option.mem_some_iff, forall_eq', List.length_append, hlen, List.length_singleton]
      exact hk

/-! ### The commits -/

/-- Every commit keeps the block's clauses; a payload entry is filled up to `PW` bytes. -/
theorem CommitEffect.invBlock {dbuf : List Byte} {s v : State} {i : Instr} (h : CommitEffect dbuf s i v) (hs : InvBlock s)
    (hlen : dbuf.length ≤ i.maxData s.cfg) : InvBlock v := by
  obtain ⟨hcfg, h1, ⟨htx, hrx⟩, h3, h4, ⟨hwrx, hwtx⟩, hetx, herx⟩ := hs
  cases h with
  | nothing | overflows => exact ⟨hcfg, h1, ⟨htx, hrx⟩, h3, h4, ⟨hwrx, hwtx⟩, hetx, herx⟩
  | register r d ds =>
    cases r with
    | config =>
      refine ⟨hcfg, ?_, ⟨htx, hrx⟩, h3, h4, ⟨hwrx, hwtx⟩, hetx, herx⟩
      simp only [Inv1, commitNamed, commitConfig, State.primRx, modeOf]
      split <;> simp_all
    | rxAddrP0 =>
      exact ⟨hcfg, h1, ⟨htx, hrx⟩, h3, h4, ⟨(writeBytes_length _ _).trans hwrx, hwtx⟩, hetx, herx⟩
    | txAddr =>
      exact ⟨hcfg, h1, ⟨htx, hrx⟩, h3, h4, ⟨hwrx, (writeBytes_length _ _).trans hwtx⟩, hetx, herx⟩
    | _ => exact ⟨hcfg, h1, ⟨htx, hrx⟩, h3, h4, ⟨hwrx, hwtx⟩, hetx, herx⟩
  | flushesTx =>
    exact ⟨hcfg, h1, ⟨Nat.zero_le _, hrx⟩, h3, fun harmed => absurd harmed Bool.false_ne_true, ⟨hwrx, hwtx⟩, by simp, herx⟩
  | flushesRx =>
    exact ⟨hcfg, h1, ⟨htx, Nat.zero_le _⟩, by simp [Inv3], h4, ⟨hwrx, hwtx⟩, hetx, by simp⟩
  | pops =>
    refine ⟨hcfg, h1, ⟨htx, ?_⟩, fun e he => h3 e (List.mem_of_mem_tail he), h4, ⟨hwrx, hwtx⟩, hetx,
      fun e he => herx e (List.mem_of_mem_tail he)⟩
    exact (List.tail_sublist _).length_le.trans hrx
  | pushes free draws hfree hroom =>
    have hentry : (dbuf ++ free).length = payloadWidth := by
      rw [List.length_append, hfree]
      exact Nat.add_sub_cancel' hlen
    refine ⟨hcfg, h1, ⟨?_, hrx⟩, h3, fun _ => by simp, ⟨hwrx, hwtx⟩, ?_, herx⟩
    · rw [List.length_append]
      exact Nat.lt_of_le_of_ne htx hroom
    · intro e he
      obtain he | he := List.mem_append.1 he
      · exact hetx e he
      · rw [List.mem_singleton.1 he, hentry]

/-- A closing edge commits, idles and arms; or raises a fault. -/
theorem Inv.riseStep {i : Instr} {s : State} (h : Inv s) (hf : s.fault = none) (hc : s.cmd = some i) :
    Inv (riseStep (ruleOf i) s) := by
  obtain ⟨v, hv, he⟩ | ⟨r, he⟩ := riseStep_effect i hf <;> rw [he]
  · have hblock : InvBlock v.idleFrame := (hv.invBlock h.block (h.inv6 i hc)).of_keeps (by constructor <;> rfl)
    exact hblock.arm (invSequencer_idleFrame v)
  · exact h.of_keeps (keepsBlock_raise s r) (h.sequencer.raise r)

/-! ### The pieces of a frame -/

theorem Inv.taking {s : State} (h : Inv s) (q : List Stimulus) : Inv (s.taking q) :=
  h.of_keeps (keepsBlock_taking s q) ⟨h.inv5, h.inv6, h.inv7, h.cmdWf⟩

theorem Inv.openFrame {s : State} (h : Inv s) : Inv s.openFrame :=
  h.of_keeps (keepsBlock_openFrame s s.stimuli) (invSequencer_openFrame s)

/-- A rejected byte is answered and raises a fault. -/
theorem Inv.rejectByte {s : State} (h : Inv s) (r : Fault) : Inv (rejectByte r s) :=
  h.of_keeps (keepsBlock_rejectByte r s s.stimuli) ⟨h.inv5, h.inv6, h.inv7, h.cmdWf⟩

theorem Inv.commandByte {i : Instr} {s : State} (h : Inv s) (h0 : s.fidx = 0) (hi : i.wf = true) :
    Inv (commandByte i (ruleOf i) s) :=
  h.of_keeps (keepsBlock_commandByte i s s.stimuli) (h.sequencer.commandByte h0 hi)

theorem Inv.dataByte {i : Instr} {s : State} (h : Inv s) (hc : s.cmd = some i) (b : Byte) :
    Inv (dataByte i (ruleOf i) b s) :=
  h.of_keeps (keepsBlock_dataByte i b s s.stimuli) (h.sequencer.dataByte hc b)

/-- A data byte leaves the latched command. -/
theorem dataByte_cmd (i : Instr) (b : Byte) (s : State) : (dataByte i (ruleOf i) b s).cmd = s.cmd := by
  obtain ⟨-, hd⟩ | ⟨-, n, hd⟩ := dataByte_cases i b s <;> rw [hd]
  rfl

/-- The whole frame of a well-formed command: the invariant holds after each of its pieces. -/
theorem Inv.frameStep {i : Instr} {s : State} (h : Inv s) (hf : s.fault = none) (hi : i.wf = true) (ds : List Byte) :
    Inv (frameStep i (ruleOf i) ds s) := by
  obtain ⟨x, hx, -⟩ := commandByte_eq i s.openFrame
  have hlatched : (Machine.commandByte i (ruleOf i) s.openFrame).cmd = some i := by rw [hx]
  have hfault : (Machine.commandByte i (ruleOf i) s.openFrame).fault = none := (commandByte_fault i _).trans hf
  refine State.andThen_induct (P := Inv) ?_ fun hn => ?_
  all_goals
    obtain ⟨hinv, hcmd⟩ := dataBytes_induct (P := fun u => Inv u ∧ u.cmd = some i) ds
      ⟨h.openFrame.commandByte rfl hi, hlatched⟩ hfault
      fun b u ⟨hu, hc⟩ _ => ⟨hu.dataByte hc b, (dataByte_cmd i b u).trans hc⟩
  · exact hinv
  · exact hinv.riseStep hn hcmd

/-! ### Every step -/

/-- Settles O53: the pieces of a frame keep the invariant one by one; the control line and the events change the block within its
clauses, and `arm()` follows. -/
theorem stepKeepsInvariant : Obligations.StepKeepsInvariant := by
  intro s t h hstep
  obtain ⟨hf, hm⟩ := step_next hstep
  have ⟨hcfg, h1, ⟨htx, hrx⟩, h3, h4, _, _, _, _, hw, ⟨hetx, herx⟩, _⟩ := h
  have hwf {b : Byte} {i : Instr} (hd : decode s.cfg b = .command i) : i.wf = true := (encodeInvertsDecode s.cfg b i hd).1
  cases hm with
  | waits => exact h
  | opens rest => exact (h.taking rest).openFrame
  | rejects b rest r => exact (h.taking rest).rejectByte r
  | command i b rest hq hs h0 hd => exact (h.taking rest).commandByte h0 (hwf hd)
  | data i b rest hq hs h0 hc => exact (h.taking rest).dataByte hc b
  | rises i rest hq hs hc => exact (h.taking rest).riseStep hf hc
  | risesEmpty rest =>
    have hk : KeepsBlock s (s.taking rest).idleFrame := by constructor <;> rfl
    exact (h.block.of_keeps hk).arm (invSequencer_idleFrame _)
  | frameEmpty rest =>
    have hk : KeepsBlock s (s.taking rest).openFrame.idleFrame := by constructor <;> rfl
    exact (h.block.of_keeps hk).arm (invSequencer_idleFrame _)
  | frameRejects b ds rest r => exact (h.taking rest).openFrame.rejectByte r
  | frameRuns i b ds rest hq hs hd => exact (h.taking rest).frameStep hf (hwf hd) ds
  | ce level rest =>
    exact InvBlock.arm ⟨hcfg, h1, ⟨htx, hrx⟩, h3, h4, hw, hetx, herx⟩ ⟨h.inv5, h.inv6, h.inv7, h.cmdWf⟩
  | evTxDs rest =>
    refine InvBlock.arm ⟨hcfg, h1, ⟨(List.tail_sublist _).length_le.trans htx, hrx⟩, h3, fun harmed => absurd harmed Bool.false_ne_true, hw,
      fun e he => hetx e (List.mem_of_mem_tail he), herx⟩ ⟨h.inv5, h.inv6, h.inv7, h.cmdWf⟩
  | evMaxRt rest =>
    exact InvBlock.arm ⟨hcfg, h1, ⟨htx, hrx⟩, h3, fun harmed => absurd harmed Bool.false_ne_true, hw, hetx, herx⟩
      ⟨h.inv5, h.inv6, h.inv7, h.cmdWf⟩
  | evRx p rest hq hp hg hn =>
    have hroom : (s.rxq ++ [(⟨0, p⟩ : RxEntry)]).length ≤ s.cfg.fifoDepth := by
      rw [List.length_append]
      exact hn
    have hmem {P : RxEntry → Prop} (hold : ∀ e ∈ s.rxq, P e) (hnew : P ⟨0, p⟩) : ∀ e ∈ s.rxq ++ [⟨0, p⟩], P e := by
      simpa [or_imp, forall_and] using ⟨hold, hnew⟩
    refine InvBlock.arm ⟨hcfg, h1, ⟨htx, hroom⟩, hmem h3 rfl, h4, hw, hetx, hmem herx hp⟩
      ⟨h.inv5, h.inv6, fun hlatched => ?_, h.cmdWf⟩
    obtain ⟨hc, hne, hhead⟩ := h.inv7 hlatched
    exact ⟨hc, by simp, hhead.trans (List.head?_append_of_ne_nil _ hne).symm⟩

/-! ### Every run -/

/-- A run of one step more: its first step, then the rest. -/
theorem run_succ_next {k : Nat} {s t : State} (h : Host.Core.run Sys2Proof.core (k + 1) s = .next t) :
    ∃ u, step s = .next u ∧ Host.Core.run Sys2Proof.core k u = .next t := by
  simp only [Host.Core.run] at h
  split at h
  · rename_i u hu
    exact ⟨u, hu, h⟩
  · cases h
  · cases h

/-- A run keeps what every step keeps. -/
theorem run_induct {P : State → Prop} (hstep : ∀ s t, P s → step s = .next t → P t) {k : Nat} {s t : State} (h : P s)
    (hrun : Host.Core.run Sys2Proof.core k s = .next t) : P t := by
  induction k generalizing s with
  | zero =>
    cases hrun
    exact h
  | succ k ih =>
    obtain ⟨u, hu, hrest⟩ := run_succ_next hrun
    exact ih (hstep s u h hu) hrest

/-- Settles O54: the power-on state has the invariant whatever the stimuli, and every step keeps it. -/
theorem reachableStatesKeepInvariant : Obligations.ReachableStatesKeepInvariant := by
  intro cfg image ce xs n t hcfg hw hrun
  exact run_induct stepKeepsInvariant ((inv_powerOn ce hcfg hw).taking xs) hrun

end Sys2Proof.Machine

/-! PROOF. The plain registers affect nothing but what a read of them returns (10_state.md R23, 92_eei_decisions.md D18): each
piece of a step gives, from a state whose plain registers are blanked, what it gives from the state itself, seen without them. -/

namespace Sys2Proof.Machine

/-- A state seen without its plain registers, with its response bytes (`true`) or without them (`false`). -/
def State.seen : Bool → State → State
  | true, s => s.blankPlain
  | false, s => s.blankPlain.blankRx

@[simp] theorem State.seen_fault (k : Bool) (s : State) : (s.seen k).fault = s.fault := by cases k <;> rfl
@[simp] theorem State.seen_cfg (k : Bool) (s : State) : (s.seen k).cfg = s.cfg := by cases k <;> rfl
@[simp] theorem State.seen_stimuli (k : Bool) (s : State) : (s.seen k).stimuli = s.stimuli := by cases k <;> rfl
@[simp] theorem State.seen_fs (k : Bool) (s : State) : (s.seen k).fs = s.fs := by cases k <;> rfl
@[simp] theorem State.seen_fidx (k : Bool) (s : State) : (s.seen k).fidx = s.fidx := by cases k <;> rfl
@[simp] theorem State.seen_cmd (k : Bool) (s : State) : (s.seen k).cmd = s.cmd := by cases k <;> rfl
@[simp] theorem State.seen_dbuf (k : Bool) (s : State) : (s.seen k).dbuf = s.dbuf := by cases k <;> rfl
@[simp] theorem State.seen_rdl (k : Bool) (s : State) : (s.seen k).rdl = s.rdl := by cases k <;> rfl
@[simp] theorem State.seen_txFull (k : Bool) (s : State) : (s.seen k).txFull = s.txFull := by cases k <;> rfl
@[simp] theorem State.seen_armCond (k : Bool) (s : State) : (s.seen k).armCond = s.armCond := by cases k <;> rfl

/-- A move that does not look at what `seen k` hides. -/
def Blind (k : Bool) (f : State → State) : Prop := ∀ s, (f (s.seen k)).seen k = (f s).seen k

theorem blind_id (k : Bool) : Blind k id := fun s => by cases k <;> rfl

/-- One blind move after another. -/
theorem Blind.comp {k : Bool} {f g : State → State} (hg : Blind k g) (hf : Blind k f) : Blind k (g ∘ f) := fun s =>
  calc (g (f (s.seen k))).seen k = (g ((f (s.seen k)).seen k)).seen k := (hg _).symm
    _ = (g ((f s).seen k)).seen k := by rw [hf]
    _ = (g (f s)).seen k := hg _

/-- A choice between blind moves by what `seen k` shows. -/
theorem Blind.ite {k : Bool} {c : State → Prop} [DecidablePred c] {f g : State → State} (hc : ∀ s, c (s.seen k) ↔ c s)
    (hf : Blind k f) (hg : Blind k g) : Blind k fun s => if c s then f s else g s := fun s => by
  simp only [hc]
  split
  · exact hf s
  · exact hg s

theorem Blind.andThen {k : Bool} {f g : State → State} (hf : Blind k f) (hg : Blind k g) :
    Blind k fun s => (f s).andThen g := fun s => by
  have h := Blind.comp (Blind.ite (c := fun t => t.fault.isSome = true) (by simp) (blind_id k) hg) hf s
  exact h

theorem blind_raise (k : Bool) (r : Fault) : Blind k (State.raise · r) := fun s => by cases k <;> rfl

theorem blind_taking (k : Bool) (q : List Stimulus) : Blind k (State.taking · q) := fun s => by cases k <;> rfl

theorem blind_openFrame (k : Bool) : Blind k State.openFrame := fun s => by cases k <;> rfl

theorem blind_idleFrame (k : Bool) : Blind k State.idleFrame := fun s => by cases k <;> rfl

theorem blind_arm (k : Bool) : Blind k State.arm :=
  Blind.ite (c := fun s => s.armCond = true) (by simp) (fun s => by cases k <;> rfl) (blind_id k)

theorem blind_rejectByte (k : Bool) (r : Fault) : Blind k (rejectByte r) := fun s => by cases k <;> rfl

/-! ### The pieces of a frame -/

theorem blind_commandByte (k : Bool) (i : Instr) : Blind k (commandByte i (ruleOf i)) := fun s => by
  cases k <;> cases i <;> rfl

/-- The command's responses show no plain register: the response bytes are not seen, or it is no read of one. -/
def ShowsNoPlain (k : Bool) (i : Instr) : Prop :=
  k = true → ∀ a r, i = .readRegister a → regAt a = some r → r.isPlain = false

/-- A response of bytes that are the same either way. -/
theorem byteOrDraw_seen (k : Bool) (bs : List Byte) (n : Nat) (s : State) :
    (respondWith (byteOrDraw bs n (s.seen k))).seen k = (respondWith (byteOrDraw bs n s)).seen k := by
  unfold byteOrDraw
  split <;> cases k <;> rfl

/-- A register that is not plain reads the same. -/
theorem State.seen_readReg (k : Bool) (s : State) {r : RegName} (h : r.isPlain = false) :
    (s.seen k).readReg r = s.readReg r := by
  cases r with
  | config | status | rxAddrP0 | txAddr | fifoStatus => cases k <;> rfl
  | _ => cases h

/-- A response to a read of a plain register, but for its value. -/
theorem byteOrDraw_seen_plain (s : State) {r : RegName} (h : r.isPlain = true) (n : Nat) :
    (respondWith (byteOrDraw ((s.seen false).readReg r) n (s.seen false))).seen false =
      (respondWith (byteOrDraw (s.readReg r) n s)).seen false := by
  cases r with
  | config | status | rxAddrP0 | txAddr | fifoStatus => cases h
  | _ => cases n <;> rfl

theorem blind_response {k : Bool} {i : Instr} (h : ShowsNoPlain k i) (n : Nat) :
    Blind k fun s => respondWith ((ruleOf i).resp n s) := fun s => by
  cases i with
  | readRegister a =>
    simp only [ruleOf, readRegisterRule, respReadRegister, State.x]
    cases ha : regAt a with
    | none => exact byteOrDraw_seen k [] n s
    | some r =>
      cases hr : r.isPlain with
      | false =>
        simp only [State.seen_readReg k s hr]
        exact byteOrDraw_seen k _ n s
      | true =>
        cases k with
        | true => simp [h rfl a r rfl ha] at hr
        | false => exact byteOrDraw_seen_plain s hr n
  | readPayload =>
    simp only [ruleOf, readPayloadRule, respReadPayload, State.seen_rdl]
    split
    · exact byteOrDraw_seen k _ n s
    · cases k <;> rfl
  | _ => cases k <;> rfl

theorem blind_dataByte {k : Bool} {i : Instr} (h : ShowsNoPlain k i) (b : Byte) :
    Blind k (dataByte i (ruleOf i) b) := fun s => by
  have hkeep : Blind k fun t => (t.keepData b).advance := fun t => by cases k <;> rfl
  simp only [dataByte, State.seen_cfg, State.seen_fidx]
  split
  · exact blind_raise k _ s
  · exact (hkeep.comp (blind_response h (s.fidx - 1))) s

theorem blind_dataBytes {k : Bool} {i : Instr} (h : ShowsNoPlain k i) (ds : List Byte) :
    Blind k (dataBytes i (ruleOf i) ds) := by
  induction ds with
  | nil => exact blind_id k
  | cons b ds ih => exact (blind_dataByte h b).andThen ih

theorem blind_commitNamed (k : Bool) (d : Byte) (dbuf : List Byte) (r : RegName) :
    Blind k fun s => commitNamed d dbuf s r := fun s => by
  cases r <;> cases k <;> rfl

theorem blind_commit (k : Bool) (i : Instr) (dbuf : List Byte) : Blind k ((ruleOf i).commit dbuf) := by
  cases i with
  | writeRegister a =>
    cases dbuf with
    | nil => exact blind_id k
    | cons d ds =>
      cases ha : regAt a with
      | none => 
        have hid : (ruleOf (.writeRegister a)).commit (d :: ds) = id := by
          funext s
          simp [ruleOf, writeRegisterRule, commitWriteRegister, ha]
        rw [hid]
        exact blind_id k
      | some r =>
        obtain rfl := (regAt_eq_some_iff _ _).1 ha
        exact fun s => by simpa using blind_commitNamed k d (d :: ds) r s
  | readPayload =>
    exact Blind.ite (c := fun s => (s.rdl.isSome && !dbuf.isEmpty && s.cfg.readPayloadPops) = true) (by simp)
      (fun s => by cases k <;> rfl) (blind_id k)
  | writePayload =>
    refine Blind.ite (c := fun _ => dbuf.isEmpty = true) (by simp) (blind_id k) ?_
    exact Blind.ite (c := fun s => s.txFull = true) (by simp) (blind_raise k _) (fun s => by cases k <;> rfl)
  | _ => exact fun s => by cases k <;> rfl

theorem blind_riseStep (k : Bool) (i : Instr) : Blind k (riseStep (ruleOf i)) := fun s => by
  have hclose := (blind_commit k i s.dbuf).andThen ((blind_arm k).comp (blind_idleFrame k))
  simp only [riseStep, State.seen_dbuf]
  exact hclose s

/-- A whole frame: without a data byte nothing is read, whatever the command. -/
theorem blind_frameStep {k : Bool} {i : Instr} {ds : List Byte} (h : ds ≠ [] → ShowsNoPlain k i) :
    Blind k (frameStep i (ruleOf i) ds) := by
  have hbytes : Blind k (dataBytes i (ruleOf i) ds) := by
    cases ds with
    | nil => exact blind_id k
    | cons b ds => exact blind_dataBytes (h (by simp)) (b :: ds)
  exact ((hbytes.comp (blind_commandByte k i)).comp (blind_openFrame k)).andThen (blind_riseStep k i)

/-! ### The step -/

/-- A step's outcome, seen. -/
abbrev outcomeSeen (k : Bool) (o : Host.Outcome State Fault Refusal) : Host.Outcome State Fault Refusal :=
  mapNext (State.seen k) o

theorem outcomeSeen_next {k : Bool} {s t : State} (h : s.seen k = t.seen k) :
    outcomeSeen k (.next s) = outcomeSeen k (.next t) :=
  congrArg Host.Outcome.next h

/-- Where a step exchanges data bytes, its command shows no plain register. -/
def StepShowsNoPlain (k : Bool) (s : State) (i : Instr) : Prop :=
  (∀ b rest, s.stimuli = .byte b :: rest → s.fidx ≠ 0 → ShowsNoPlain k i) ∧
  ∀ b ds rest, s.stimuli = .frame (b :: ds) :: rest → ds ≠ [] → ShowsNoPlain k i

theorem exec_seen {k : Bool} {i : Instr} {s : State} (h : StepShowsNoPlain k s i) :
    outcomeSeen k (exec i (s.seen k)) = outcomeSeen k (exec i s) := by
  obtain ⟨hbyte, hframe⟩ := h
  simp only [exec_eq, runCommand, State.seen_fault, State.seen_stimuli, State.seen_fs]
  split
  · rfl
  · split
    · rename_i b rest hq
      split
      · rfl
      · refine outcomeSeen_next ?_
        have hkeep := blind_taking k rest
        by_cases h0 : s.fidx = 0 <;> simp only [byteStep, State.taking_fidx, State.seen_fidx, h0, if_true, if_false]
        · exact ((blind_commandByte k i).comp hkeep) s
        · exact ((blind_dataByte (hbyte b rest hq h0) b).comp hkeep) s
    · split
      · rfl
      · exact outcomeSeen_next (((blind_riseStep k i).comp (blind_taking k _)) s)
    · rename_i b ds rest hq
      split
      · exact outcomeSeen_next (((blind_frameStep (hframe b ds rest hq)).comp (blind_taking k _)) s)
      · rfl
    · rfl

/-- A move that answers an outcome and does not look at what `seen k` hides. -/
def BlindStep (k : Bool) (f : State → Host.Outcome State Fault Refusal) : Prop :=
  ∀ s, outcomeSeen k (f (s.seen k)) = outcomeSeen k (f s)

theorem BlindStep.next {k : Bool} {f : State → State} (h : Blind k f) : BlindStep k fun s => .next (f s) :=
  fun s => outcomeSeen_next (h s)

theorem blindStep_refused (k : Bool) (r : Refusal) : BlindStep k fun _ => .refused r := fun _ => rfl

/-- A guarded move. -/
theorem BlindStep.ite {k : Bool} {c : State → Prop} [DecidablePred c] {f g : State → Host.Outcome State Fault Refusal}
    (hc : ∀ s, c (s.seen k) ↔ c s) (hf : BlindStep k f) (hg : BlindStep k g) :
    BlindStep k fun s => if c s then f s else g s := fun s => by
  simp only [hc]
  split
  · exact hf s
  · exact hg s

/-- An outcome move after a move. -/
theorem BlindStep.comp {k : Bool} {f : State → State} {g : State → Host.Outcome State Fault Refusal} (hg : BlindStep k g)
    (hf : Blind k f) : BlindStep k (g ∘ f) := fun s =>
  calc outcomeSeen k (g (f (s.seen k))) = outcomeSeen k (g ((f (s.seen k)).seen k)) := (hg _).symm
    _ = outcomeSeen k (g ((f s).seen k)) := by rw [hf]
    _ = outcomeSeen k (g (f s)) := hg _

theorem blindStep_ce (k : Bool) (level : Level) : BlindStep k (stepCe level) :=
  .next ((blind_arm k).comp fun s => by cases k <;> rfl)

theorem blindStep_evTxDs (k : Bool) : BlindStep k stepEvTxDs :=
  .ite (c := fun s => s.txArmed = true) (fun s => by cases k <;> rfl)
    (.next ((blind_arm k).comp fun s => by cases k <;> rfl)) (blindStep_refused k _)

theorem blindStep_evMaxRt (k : Bool) : BlindStep k stepEvMaxRt :=
  .ite (c := fun s => s.txArmed = true) (fun s => by cases k <;> rfl)
    (.next ((blind_arm k).comp fun s => by cases k <;> rfl)) (blindStep_refused k _)

theorem blindStep_evRx (k : Bool) (p : List Byte) : BlindStep k (stepEvRx p) :=
  .ite (c := fun _ => p.length ≠ payloadWidth) (fun _ => Iff.rfl) (blindStep_refused k _)
    (.ite (c := fun s => (s.listening && decide (s.rxq.length < s.cfg.fifoDepth)) = true) (fun s => by cases k <;> rfl)
      (.next ((blind_arm k).comp fun s => by cases k <;> rfl)) (blindStep_refused k _))

/-- Closing a frame that has no command. -/
theorem blind_closeEmpty (k : Bool) : Blind k closeEmpty :=
  (blind_id k).andThen ((blind_arm k).comp (blind_idleFrame k))

/-- What a settled reading answers, or the command that it hands to `exec`. -/
def Fetched.outcome (s : State) : Fetched → Host.Outcome State Fault Refusal
  | .run i => exec i s
  | .settled o => o

theorem step_eq_outcome (s : State) : step s = (fetch s).outcome s := by
  unfold step Fetched.outcome
  cases fetch s <;> rfl

/-- A command byte is read the same way, if the command that it names shows no plain register. -/
theorem fetchCommand_seen {k : Bool} {b : Byte} {f : State → State} (hf : Blind k f) (hcfg : ∀ s, (f s).cfg = s.cfg)
    {s : State} (h : ∀ i, decode s.cfg b = .command i → StepShowsNoPlain k s i) :
    outcomeSeen k ((fetchCommand b (f (s.seen k))).outcome (s.seen k)) = outcomeSeen k ((fetchCommand b (f s)).outcome s) := by
  simp only [fetchCommand, hcfg, State.seen_cfg]
  cases hd : decode s.cfg b with
  | command i => exact exec_seen (h i hd)
  | reserved a => exact outcomeSeen_next (((blind_rejectByte k _).comp hf) s)
  | illegal c => exact outcomeSeen_next (((blind_rejectByte k _).comp hf) s)

/-- Every step, in the order of `fetch`: nothing to do, CSN_FALL, BYTE, CSN_RISE, FRAME, the control line, the events. -/
theorem step_seen {k : Bool} {s : State} (h : k = true → ¬ ReadsPlainNext s) :
    outcomeSeen k (step (s.seen k)) = outcomeSeen k (step s) := by
  have hread {a : RegAddr} {r : RegName} (hk : k = true) (ha : regAt a = some r)
      (hnext : (∃ b rest, s.stimuli = .byte b :: rest ∧ s.fidx ≠ 0 ∧ s.cmd = some (.readRegister a)) ∨
        ∃ b ds rest, s.stimuli = .frame (b :: ds) :: rest ∧ ds ≠ [] ∧ decode s.cfg b = .command (.readRegister a)) :
      r.isPlain = false :=
    Bool.eq_false_iff.2 fun hr => h hk ⟨a, r, ha, hr, hnext⟩
  rw [step_eq_outcome, step_eq_outcome]
  simp only [fetch, State.seen_fault, State.seen_stimuli, State.seen_fs, State.seen_fidx, State.seen_cmd]
  split
  · rfl
  · split
    · exact outcomeSeen_next (blind_id k s)
    · split
      · exact outcomeSeen_next (((blind_openFrame k).comp (blind_taking k _)) s)
      · rfl
    · rename_i b rest hq
      split
      · rfl
      · split
        · refine fetchCommand_seen (blind_taking k rest) (fun _ => rfl) fun i _ => ⟨?_, ?_⟩
          · exact fun _ _ _ h0 => absurd (by assumption) h0
          · exact fun _ _ _ hq' => by simp [hq] at hq'
        · split
          · rename_i h0 _ i hc
            refine exec_seen ⟨fun b' rest' hq' _ hk a r hi ha => ?_, fun _ _ _ hq' => by simp [hq] at hq'⟩
            exact hread hk ha (.inl ⟨b, rest, hq, h0, hi ▸ hc⟩)
          · rfl
    · rename_i rest hq
      split
      · rfl
      · split
        · exact exec_seen ⟨fun _ _ hq' => by simp [hq] at hq', fun _ _ _ hq' => by simp [hq] at hq'⟩
        · exact outcomeSeen_next (((blind_closeEmpty k).comp (blind_taking k _)) s)
    · rename_i tx rest hq
      split
      · split
        · exact outcomeSeen_next (((blind_closeEmpty k).comp ((blind_openFrame k).comp (blind_taking k _))) s)
        · rename_i b ds
          refine fetchCommand_seen ((blind_openFrame k).comp (blind_taking k rest)) (fun _ => rfl) fun i hd => ⟨?_, ?_⟩
          · exact fun _ _ hq' => by simp [hq] at hq'
          · intro b' ds' rest' hq' hds hk a r hi ha
            obtain ⟨⟨rfl, rfl⟩, rfl⟩ : (b' = b ∧ ds' = ds) ∧ rest' = rest := by simpa [hq] using hq'.symm
            exact hread hk ha (.inr ⟨b', ds', rest', hq, hds, hi ▸ hd⟩)
      · rfl
    · exact ((blindStep_ce k _).comp (blind_taking k _)) s
    · exact ((blindStep_evTxDs k).comp (blind_taking k _)) s
    · exact ((blindStep_evMaxRt k).comp (blind_taking k _)) s
    · exact ((blindStep_evRx k _).comp (blind_taking k _)) s

/-- Two states that look the same step to outcomes that look the same. -/
theorem step_congr_seen {k : Bool} {s s' : State} (hs : s.seen k = s'.seen k) (h : k = true → ¬ ReadsPlainNext s) :
    outcomeSeen k (step s) = outcomeSeen k (step s') := by
  have h' (hk : k = true) : ¬ ReadsPlainNext s' := by
    subst hk
    have hnot : ¬ ReadsPlainNext (s.seen true) := h rfl
    rwa [hs] at hnot
  rw [← step_seen h, hs, step_seen h']

/-- Settles O51: `step_congr_seen`, with the response bytes in sight and without them. -/
theorem plainRegistersAffectNothing : Obligations.PlainRegistersAffectNothing :=
  ⟨fun _ _ hs h => step_congr_seen (k := true) hs fun _ => h, fun _ _ hs => step_congr_seen (k := false) hs (by simp)⟩

end Sys2Proof.Machine

/-! PROOF. The composed bytes (10_state.md R25 to R29), the state after power-on (R43), and what a response depends on
(20_memory.md R73, R78). -/

namespace Sys2Proof.Machine

/-! ### The Status byte (R25, R27, R28) -/

theorem State.txFull_eq (s : State) : s.txFull = decide (s.txq.length = s.cfg.fifoDepth) := by
  simp [State.txFull, beq_eq_decide]

/-- The field of bits 3:1 of a byte put together from fields. -/
theorem extractLsb'_pipe (high : BitVec 4) (pipe : BitVec 3) (low : BitVec 1) :
    (high ++ pipe ++ low).extractLsb' 1 3 = pipe := by
  rw [BitVec.extractLsb'_append_eq_of_le, BitVec.extractLsb'_append_eq_of_add_le] <;> simp

theorem State.statusByte_pipe (s : State) : s.statusByte.extractLsb' 1 3 = s.rxPNo :=
  extractLsb'_pipe _ _ _

/-- Settles O20: each bit and the pipe field is read off the concatenation. -/
theorem statusByteBits : Obligations.StatusByteBits := by
  intro s
  rw [State.statusByte_pipe, ← State.txFull_eq]
  refine ⟨?_, ?_, ?_, ?_, ?_, fun hq => by simp [State.rxPNo, hq], fun e q hq => by simp [State.rxPNo, hq]⟩
  all_goals
    simp only [State.statusByte, BitVec.getLsbD_append]
    simp

/-! ### The FIFO Status byte (R29) -/

/-- Bit 0 is low and bits 7:1 are the table's value. -/
theorem State.fifoStatusByte_low (s : State) : s.fifoStatusByte.getLsbD 0 = s.rxq.isEmpty := by
  rw [State.fifoStatusByte, BitVec.getLsbD_append]
  simp

theorem State.fifoStatusByte_high (s : State) :
    s.fifoStatusByte.extractLsb' 1 7 = fifoStatusHi s.cfg s.txq.length s.rxq.length :=
  BitVec.extractLsb'_append_eq_left

/-- Up to `FIFO_DEPTH` the value is the parameter table's (R6). -/
theorem fifoStatusHi_of_le {cfg : Config} (h : cfg.wf) {tx rx : Nat} (htx : tx ≤ cfg.fifoDepth) (hrx : rx ≤ cfg.fifoDepth) :
    ∃ row v, cfg.fifoStatusHi[tx]? = some row ∧ row[rx]? = some v ∧ fifoStatusHi cfg tx rx = v := by
  obtain ⟨-, -, -, -, hlen, hrows⟩ := h
  have hrow : tx < cfg.fifoStatusHi.length := by omega
  have hcol : rx < cfg.fifoStatusHi[tx].length := by
    rw [hrows _ (List.getElem_mem hrow)]
    omega
  have hr := List.getElem?_eq_getElem hrow
  have hv := List.getElem?_eq_getElem hcol
  exact ⟨_, _, hr, hv, by simp [fifoStatusHi, hr, hv]⟩

/-- The table of REF is its layout (R29). -/
theorem fifoStatusHi_ref : ∀ tx < 4, ∀ rx < 4, fifoStatusHi .ref tx rx = refFifoStatusHi 3 tx rx := by decide

/-- Settles O21: the occupancies are within the table (INV2). -/
theorem fifoStatusByteBits : Obligations.FifoStatusByteBits := by
  intro s h
  obtain ⟨htx, hrx⟩ := h.inv2
  refine ⟨?empty, ?table, fun hcfg => ?ref⟩
  case empty =>
    rw [State.fifoStatusByte_low, Bool.eq_iff_iff]
    simp
  case table =>
    obtain ⟨row, v, hrow, hv, he⟩ := fifoStatusHi_of_le h.cfgWf htx hrx
    exact ⟨row, v, hrow, hv, s.fifoStatusByte_high.trans he⟩
  case ref =>
    rw [hcfg] at htx hrx
    have hlayout := fifoStatusHi_ref s.txq.length (Nat.lt_succ_of_le htx) s.rxq.length (Nat.lt_succ_of_le hrx)
    simp only [State.fifoStatusByte, hcfg, hlayout, refFifoStatusHi, BitVec.getLsbD_append]
    simp [beq_eq_decide]

/-! ### After power-on (R43) -/

/-- Settles O56: the fields are power-on's own; both FIFOs are empty, so the composed bytes are the parameters' values for two
empty FIFOs. -/
theorem powerOnState : Obligations.PowerOnState := by
  rintro cfg image ce s hcfg rfl
  obtain ⟨row, v, hrow, hv, he⟩ := fifoStatusHi_of_le hcfg (Nat.zero_le _) (Nat.zero_le _)
  have hdepth : 0 ≠ cfg.fifoDepth := by
    obtain ⟨-, hd, -⟩ := hcfg
    omega
  have hstatus : (State.powerOn cfg image ce).statusByte = 0b0000#4 ++ cfg.rxPNoEmpty ++ 0#1 := by
    have hfull : (State.powerOn cfg image ce).txFull = false := by simp [State.txFull, State.powerOn, hdepth]
    have hpipe : (State.powerOn cfg image ce).rxPNo = cfg.rxPNoEmpty := rfl
    have hflags : 0#1 ++ BitVec.ofBool false ++ BitVec.ofBool false ++ BitVec.ofBool false = 0#4 := by decide
    rw [State.statusByte, hfull, hpipe]
    exact congrArg (· ++ cfg.rxPNoEmpty ++ 0#1) hflags
  have hfifo : (State.powerOn cfg image ce).fifoStatusByte = v ++ 1#1 := congrArg (· ++ 1#1) he
  refine ⟨rfl, rfl, rfl, rfl, ?_, rfl, rfl, rfl, rfl, rfl, rfl, rfl, rfl, rfl, rfl, hstatus, ⟨row, v, hrow, hv, hfifo⟩, ?_⟩
  · simp [State.powerOn]
  · rintro rfl
    refine ⟨hstatus.trans (by decide), ?_⟩
    rw [State.fifoStatusByte]
    exact (by decide : fifoStatusHi Config.ref 0 0 ++ 1#1 = 0x11#8)

/-! ### The response bytes (20_memory.md R73, R78) -/

/-- A command byte answers the Status byte of before it (R73). -/
theorem commandByte_rx (i : Instr) (s : State) : (commandByte i (ruleOf i) s).rx = s.rx ++ [s.statusByte] := by
  obtain ⟨x, hx, -⟩ := commandByte_eq i s
  rw [hx]

theorem rejectByte_rx (r : Fault) (s : State) : (rejectByte r s).rx = s.rx ++ [s.statusByte] := rfl

/-- A data byte adds to the response, or faults. -/
theorem dataByte_rx (i : Instr) (b : Byte) (s : State) : ∃ l, (dataByte i (ruleOf i) b s).rx = s.rx ++ l := by
  obtain ⟨-, hd⟩ | ⟨-, n, hd⟩ := dataByte_cases i b s <;> rw [hd]
  · exact ⟨[], by simp⟩
  · exact ⟨[_], rfl⟩

/-- The closing edge exchanges no byte. -/
theorem riseStep_rx (i : Instr) {s : State} (hf : s.fault = none) : (riseStep (ruleOf i) s).rx = s.rx := by
  obtain ⟨-, hr⟩ | ⟨-, -, hr⟩ | ⟨-, -, -, hr⟩ := riseStep_cases i s hf <;> rw [hr]
  · obtain ⟨-, -, -, hrx, -⟩ := commit_frame i s.dbuf s
    simpa using hrx
  · rfl
  · rfl

/-- The first response byte of a whole frame is the Status byte of before it, whatever comes after. -/
theorem frameStep_rx_head (i : Instr) (ds : List Byte) {s : State} (hf : s.fault = none) :
    (frameStep i (ruleOf i) ds s).rx.head? = some s.statusByte := by
  refine frameStep_induct (P := fun t => t.rx.head? = some s.statusByte) ds ?_ ?_ (fun b t ht _ => ?_) fun t ht hn => ?_
  · rw [commandByte_rx]; rfl
  · exact (commandByte_fault i _).trans hf
  · obtain ⟨l, hl⟩ := dataByte_rx i b t
    simp [hl, ht]
  · rw [riseStep_rx i hn]; exact ht

/-- What a byte in an open frame is, by its decoding: a rejected one or a command. -/
theorem rejection_or_command (cfg : Config) (b : Byte) :
    (∃ r, rejection (decode cfg b) = some r) ∨ ∃ i, decode cfg b = .command i := by
  cases decode cfg b <;> simp [rejection]

/-- Settles O18: the Status byte goes out before the command byte is looked at. -/
theorem firstResponseIsStatus : Obligations.FirstResponseIsStatus := by
  intro s b rest
  refine ⟨fun h => ?byte, fun ds h => ?frame⟩
  case byte =>
    obtain ⟨r, hd⟩ | ⟨i, hd⟩ := rejection_or_command s.cfg b
    · exact ⟨_, step_commandByte_rejects h hd, rfl⟩
    · obtain ⟨hf, hs, h0, hq⟩ := h
      exact ⟨_, (step_commandByte ⟨hf, hs, h0, hq⟩ hd).trans (exec_command hf hs h0 hq), commandByte_rx i _⟩
  case frame =>
    obtain ⟨r, hd⟩ | ⟨i, hd⟩ := rejection_or_command s.cfg b
    · exact ⟨_, step_frame_rejects_commandByte h hd, rfl⟩
    · obtain ⟨hf, hs, hq⟩ := h
      exact ⟨_, (step_frame ⟨hf, hs, hq⟩ hd).trans (exec_frame hf hs hq), frameStep_rx_head i ds hf⟩

/-- The response to a data byte, or none where it faults, whatever the byte is. -/
theorem dataByte_rx_congr (i : Instr) (b b' : Byte) (s : State) :
    (dataByte i (ruleOf i) b s).rx = (dataByte i (ruleOf i) b' s).rx := by
  unfold dataByte
  split <;> rfl

/-- A data byte that raises no fault is answered by one byte. -/
theorem dataByte_rx_length {i : Instr} {b : Byte} {s : State} (h : (dataByte i (ruleOf i) b s).fault = none) :
    (dataByte i (ruleOf i) b s).rx.length = s.rx.length + 1 := by
  obtain ⟨-, hd⟩ | ⟨-, n, hd⟩ := dataByte_cases i b s <;> rw [hd] at h ⊢
  · simp at h
  · simp

/-- The response of a BYTE step: the Status byte at a command byte, else that of a data byte of the latched command. -/
theorem step_byte_rx {s t : State} {b : Byte} {rest : List Stimulus} (h : step s = .next t)
    (hq : s.stimuli = .byte b :: rest) :
    (s.fidx = 0 ∧ t.rx = s.rx ++ [s.statusByte]) ∨
    (s.fidx ≠ 0 ∧ ∃ i, s.cmd = some i ∧ t = dataByte i (ruleOf i) b (s.taking rest)) := by
  obtain ⟨-, ⟨h0, r, -, rfl⟩ | ⟨h0, i, -, rfl⟩ | ⟨h0, i, hc, rfl⟩⟩ := step_byte_next h hq
  · exact .inl ⟨h0, rfl⟩
  · exact .inl ⟨h0, commandByte_rx i _⟩
  · exact .inr ⟨h0, i, hc, rfl⟩

/-- Settles O19: at a command byte the response is the Status byte, at a data byte it is evaluated before the byte is stored. -/
theorem responseIgnoresItsOwnByte : Obligations.ResponseIgnoresItsOwnByte := by
  intro s t t' b b' rest h h'
  obtain ⟨h0, hrx⟩ | ⟨h0, i, hc, rfl⟩ := step_byte_rx h rfl
  · obtain ⟨-, hrx'⟩ | ⟨h0', -⟩ := step_byte_rx h' rfl
    · exact ⟨hrx.trans hrx'.symm, fun _ => by simp [hrx]⟩
    · exact absurd h0 h0'
  · obtain ⟨h0', -⟩ | ⟨-, j, hj, rfl⟩ := step_byte_rx h' rfl
    · exact absurd h0' h0
    · obtain rfl : j = i := Option.some.inj (hj.symm.trans hc)
      exact ⟨dataByte_rx_congr j b b' _, fun hn => dataByte_rx_length hn⟩

end Sys2Proof.Machine

/-! PROOF. Whole frames and single bus steps of each command (40_register_access.md, 41_nop_status.md, 42_fifo_commands.md): a
frame of at most `maxdata(cmd)` data bytes comes to its closing edge with its bytes exchanged, and the closing edge commits. -/

namespace Sys2Proof.Machine

/-! ### A frame up to its closing edge -/

/-- The entry that byte 0 of a command latches (R162). -/
def latchedEntry (i : Instr) (s : State) : Option RxEntry :=
  if i = .readPayload then s.rxq.head? else none

/-- `s` with a frame of `i` open whose bytes have been exchanged: the data bytes `ds`, the responses `rx`. -/
def State.exchanged (s : State) (i : Instr) (ds : List Byte) (rest : List Stimulus) (rx : List Byte) (draws : Nat) : State :=
  { s with fs := .data, fidx := ds.length + 1, cmd := some i, dbuf := ds, rdl := latchedEntry i s, stimuli := rest, rx := rx,
           drawCount := draws }

/-- Closing the frame leaves what `framed` names. -/
theorem State.exchanged_idleFrame (s : State) (i : Instr) (ds : List Byte) (rest : List Stimulus) (rx : List Byte)
    (draws : Nat) : (s.exchanged i ds rest rx draws).idleFrame = s.framed rest rx draws := rfl

@[simp] theorem State.framed_fault (s : State) (rest : List Stimulus) (rx : List Byte) (draws : Nat) :
    (s.framed rest rx draws).fault = s.fault := rfl

@[simp] theorem State.framed_fs (s : State) (rest : List Stimulus) (rx : List Byte) (draws : Nat) :
    (s.framed rest rx draws).fs = .idle := rfl

@[simp] theorem State.framed_stimuli (s : State) (rest : List Stimulus) (rx : List Byte) (draws : Nat) :
    (s.framed rest rx draws).stimuli = rest := rfl

@[simp] theorem State.framed_rx (s : State) (rest : List Stimulus) (rx : List Byte) (draws : Nat) :
    (s.framed rest rx draws).rx = rx := rfl

/-- A closing edge whose commit is known and raises no fault. -/
theorem riseStep_of_commit {i : Instr} {u v : State} (hc : (ruleOf i).commit u.dbuf u = v) (hn : v.fault = none) :
    riseStep (ruleOf i) u = v.idleFrame.arm := by
  rw [riseStep, closeFrame_of_none (by rw [hc]; exact hn), hc]

/-- The closing edge of a frame whose bytes have been exchanged. -/
theorem State.rises_exchanged {i : Instr} {ds rx : List Byte} {rest : List Stimulus} {draws : Nat} {s v : State}
    (hc : (ruleOf i).commit ds (s.exchanged i ds rest rx draws) = v) (hn : v.fault = none) :
    riseStep (ruleOf i) (s.exchanged i ds rest rx draws) = v.idleFrame.arm :=
  riseStep_of_commit hc hn

/-- The command byte of a whole frame answers the Status byte. -/
theorem commandByte_openFrame (i : Instr) (s : State) (rest : List Stimulus) :
    commandByte i (ruleOf i) (s.taking rest).openFrame = s.exchanged i [] rest [s.statusByte] s.drawCount := by
  obtain ⟨x, hx, hother, hread⟩ := commandByte_eq i (s.taking rest).openFrame
  have hlatch : x = latchedEntry i s := by
    unfold latchedEntry
    split
    · exact hread (by assumption)
    · exact hother (by assumption)
  rw [hx, hlatch]
  rfl

/-- A data phase within `maxdata(cmd)` answers one byte beside each data byte and keeps the data (R99, R78). -/
theorem dataBytes_within {i : Instr} (ds : List Byte) {s : State} (hf : s.fault = none) (h1 : 1 ≤ s.fidx)
    (hm : s.fidx - 1 + ds.length ≤ i.maxData s.cfg) :
    ∃ l n, l.length = ds.length ∧ dataBytes i (ruleOf i) ds s =
      { s with rx := s.rx ++ l, dbuf := s.dbuf ++ ds, fidx := s.fidx + ds.length, drawCount := n } := by
  induction ds generalizing s with
  | nil => exact ⟨[], s.drawCount, rfl, by simp⟩
  | cons b ds ih =>
    rw [List.length_cons] at hm
    obtain ⟨hover, -⟩ | ⟨-, n, hd⟩ := dataByte_cases i b s
    · omega
    · obtain ⟨l, n', hl, he⟩ := ih (s := dataByte i (ruleOf i) b s) (by rw [hd]; exact hf) (by rw [hd]; exact Nat.le_add_left 1 _)
        (by rw [hd]; simp only; omega)
      refine ⟨((ruleOf i).resp (s.fidx - 1) s).1 :: l, n', by simp [hl], ?_⟩
      rw [dataBytes_cons, State.andThen_of_none _ (by rw [hd]; exact hf), he, hd]
      simp
      omega

/-- A whole frame whose data bytes raise no fault is the closing edge of what they leave. -/
theorem exec_frame_rises {i : Instr} {s u : State} {b : Byte} {ds : List Byte} {rest : List Stimulus}
    (h : FrameNext s b ds rest)
    (hu : dataBytes i (ruleOf i) ds (s.exchanged i [] rest [s.statusByte] s.drawCount) = u) (hn : u.fault = none) :
    exec i s = .next (riseStep (ruleOf i) u) := by
  obtain ⟨hf, hs, hq⟩ := h
  rw [exec_frame hf hs hq, frameStep, commandByte_openFrame, hu]
  exact congrArg Host.Outcome.next (State.andThen_of_none _ hn)

/-- A frame without data. -/
theorem exec_frame_empty (i : Instr) {s : State} {b : Byte} {rest : List Stimulus} (h : FrameNext s b [] rest) :
    exec i s = .next (riseStep (ruleOf i) (s.exchanged i [] rest [s.statusByte] s.drawCount)) :=
  exec_frame_rises h rfl h.1

/-- A frame within `maxdata(cmd)`. -/
theorem exec_frame_within {i : Instr} {s : State} {b : Byte} {ds : List Byte} {rest : List Stimulus} (h : FrameNext s b ds rest)
    (hm : ds.length ≤ i.maxData s.cfg) :
    ∃ l n, l.length = ds.length ∧
      exec i s = .next (riseStep (ruleOf i) (s.exchanged i ds rest (s.statusByte :: l) n)) := by
  obtain ⟨l, n, hl, hd⟩ := dataBytes_within (i := i) ds (s := s.exchanged i [] rest [s.statusByte] s.drawCount) h.1 le_rfl
    (by simpa [State.exchanged] using hm)
  refine ⟨l, n, hl, exec_frame_rises h (hd.trans ?_) h.1⟩
  simp [State.exchanged, Nat.add_comm]

/-- A frame of a command that answers the bytes `bs`, which the data phase does not change. -/
theorem exec_frame_return {i : Instr} (bs : List Byte) {P : State → Prop} {s : State} {b : Byte} {ds : List Byte}
    {rest : List Stimulus} (h : FrameNext s b ds rest) (hP : ∀ t r b, P t → P ((t.respond r).keepData b).advance)
    (hr : ∀ k t v, P t → bs[k]? = some v → (ruleOf i).resp k t = (v, t))
    (hs : P (s.exchanged i [] rest [s.statusByte] s.drawCount)) (hl : ds.length ≤ bs.length) (hm : bs.length ≤ i.maxData s.cfg) :
    exec i s = .next (riseStep (ruleOf i) (s.exchanged i ds rest (s.statusByte :: bs.take ds.length) s.drawCount)) := by
  have hd := dataBytes_return (i := i) (c := ruleOf i) bs hP hr ds hs h.1 le_rfl (by simpa [State.exchanged] using hl) hm
  refine exec_frame_rises h (hd.trans ?_) h.1
  simp [State.exchanged, Nat.add_comm]

/-! ### READ_REGISTER (R120, R127) -/

/-- A read of bytes that are there. -/
theorem readRegister_resp {a : RegAddr} {k : Nat} {v : Byte} {s : State} (h : (s.x a)[k]? = some v) :
    (ruleOf (.readRegister a)).resp k s = (v, s) :=
  byteOrDraw_of_lt s h

theorem exec_readRegister_frame {s : State} {a : RegAddr} {b : Byte} {ds : List Byte} {rest : List Stimulus}
    (h : FrameNext s b ds rest) (hx : (s.x a).length = regWidth s.cfg a) (hds : ds.length ≤ regWidth s.cfg a) :
    exec (.readRegister a) s = .next (s.framed rest (s.statusByte :: (s.x a).take ds.length) s.drawCount).arm := by
  rw [exec_frame_return (s.x a) (P := fun t => t.x a = s.x a) h (fun t r b ht => ht)
    (fun k t v ht hv => readRegister_resp (ht ▸ hv)) rfl (hds.trans_eq hx.symm) hx.le]
  exact congrArg Host.Outcome.next (closeFrame_of_none h.1)

/-- Settles O22: the registers are as wide as the catalogue says. -/
theorem readRegisterFrameReturnsContents : Obligations.ReadRegisterFrameReturnsContents := by
  intro s a b ds rest hw _ hds h
  exact exec_readRegister_frame h (s.x_length a hw) hds

/-- Settles O24: the frame of R120, at the two registers whose byte is composed. -/
theorem composedRegisterReads : Obligations.ComposedRegisterReads := by
  intro s b d rest h
  refine ⟨exec_readRegister_frame (a := RegName.status.addr) h rfl le_rfl,
    exec_readRegister_frame (a := RegName.fifoStatus.addr) h rfl le_rfl, ?_⟩
  rw [rxHasData, State.fifoStatusByte_low]
  simp

/-- The data byte of a command that answers byte `v` and draws nothing. -/
theorem exec_data_returns {i : Instr} {s : State} {b v : Byte} {rest : List Stimulus} (h : DataByteNext s b rest)
    (hm : s.fidx - 1 < i.maxData s.cfg) (hr : (ruleOf i).resp (s.fidx - 1) (s.taking rest) = (v, s.taking rest)) :
    exec i s = .next { s with stimuli := rest, rx := s.rx ++ [v], dbuf := s.dbuf ++ [b], fidx := s.fidx + 1 } := by
  obtain ⟨hf, hs, h0, hq⟩ := h
  rw [exec_data hf hs h0 hq, dataByte_within (s := s.taking rest) hm]
  exact congrArg (fun p => Host.Outcome.next ((respondWith p).keepData b).advance) hr

/-- Settles O23: the response is read in the state of the exchange; a read commits nothing. -/
theorem readRegisterByteByByte : Obligations.ReadRegisterByteByByte := by
  intro s a rest hw _
  refine ⟨fun b h hk => ?data, fun h => exec_rise_commits h h.1⟩
  have hlt : s.fidx - 1 < (s.x a).length := hk.trans_eq (s.x_length a hw).symm
  have hv := List.getElem?_eq_getElem hlt
  exact ⟨_, hv, exec_data_returns h hk (readRegister_resp (s := s.taking rest) hv)⟩

/-! ### WRITE_REGISTER (R121 to R126) -/

/-- Settles O26: STATUS's commit on the closed frame, each flag as the conjunction of R123. -/
theorem writeStatusCommit : Obligations.WriteStatusCommit := by
  intro s d ds rest h hd
  have hflag (flag bit : Bool) : (flag && !bit) = if bit = true then false else flag := by cases bit <;> simp
  rw [← hflag, ← hflag, ← hflag]
  exact exec_writeRegister_commits .status h hd (by decide)

/-- A register other than the two composed ones reads back what was written, then its old bytes. -/
theorem commitNamed_readReg_self {r : RegName} {d : Byte} {ds : List Byte} {s : State} (h7 : r ≠ .status)
    (h17 : r ≠ .fifoStatus) (hw : s.regs.widths s.cfg.aw) (hlen : (d :: ds).length ≤ r.width s.cfg) :
    (commitNamed d (d :: ds) s r).readReg r = d :: ds ++ (s.readReg r).drop (d :: ds).length := by
  obtain ⟨hrx, htx⟩ := hw
  cases r with
  | status => exact absurd rfl h7
  | fifoStatus => exact absurd rfl h17
  | rxAddrP0 => exact writeBytes_eq (hlen.trans_eq hrx.symm)
  | txAddr => exact writeBytes_eq (hlen.trans_eq htx.symm)
  | _ =>
    obtain rfl : ds = [] := List.eq_nil_of_length_eq_zero (Nat.le_zero.1 (Nat.le_of_succ_le_succ hlen))
    rfl

/-- `x[a]` at a register's own address. -/
theorem State.x_addr (s : State) (r : RegName) : s.x r.addr = s.readReg r := by
  rw [State.x, regAt_addr]

/-- A write's frame without data changes nothing but what `arm()` may set (R65). -/
theorem exec_writeRegister_frame_empty (a : RegAddr) {s : State} {b : Byte} {rest : List Stimulus} (h : FrameNext s b [] rest) :
    exec (.writeRegister a) s = .next (s.framed rest [s.statusByte] s.drawCount).arm :=
  (exec_frame_empty _ h).trans (congrArg Host.Outcome.next (closeFrame_of_none h.1))

/-- A write's frame with data, to any register but FIFO_STATUS, is its register's commit, the return to Idle and `arm()`. -/
theorem exec_writeRegister_frame {r : RegName} {s : State} {b d : Byte} {ds : List Byte} {rest : List Stimulus}
    (h : FrameNext s b (d :: ds) rest) (hds : (d :: ds).length ≤ r.width s.cfg) (hr : r ≠ .fifoStatus) :
    ∃ l n, l.length = (d :: ds).length ∧ exec (.writeRegister r.addr) s =
      .next (commitNamed d (d :: ds) (s.framed rest (s.statusByte :: l) n) r).arm := by
  have hw : (d :: ds).length ≤ regWidth s.cfg r.addr := by
    rw [regWidth, regAt_addr]
    exact hds
  obtain ⟨l, n, hl, he⟩ := exec_frame_within (i := .writeRegister r.addr) h hw
  refine ⟨l, n, hl, he.trans (congrArg Host.Outcome.next ?_)⟩
  have hc := writeRegister_commit_cons r d ds (s.exchanged (.writeRegister r.addr) (d :: ds) rest (s.statusByte :: l) n)
  have hn := (commitNamed_fault d (d :: ds) (s.exchanged (.writeRegister r.addr) (d :: ds) rest (s.statusByte :: l) n) hr).trans h.1
  rw [State.rises_exchanged hc hn, commitNamed_idleFrame]
  rfl

/-- Settles O29: the frame comes to its closing edge with the data as `dbuf`, and the commit writes what `x[a]` then reads. -/
theorem writeRegisterFrameReadsBack : Obligations.WriteRegisterFrameReadsBack := by
  intro s a r b ds rest hw ha hds hfifo h
  obtain rfl := (regAt_eq_some_iff _ _).1 ha
  cases ds with
  | nil =>
    exact ⟨_, exec_writeRegister_frame_empty _ h, by simpa using h.1, by simp, by simp,
      by simp, by simp, fun _ => rfl, fun _ hne => absurd rfl hne⟩
  | cons d ds =>
    have h17 : r ≠ .fifoStatus := fun he => by simpa using hfifo he
    have hwidth : (d :: ds).length ≤ r.width s.cfg := by
      rw [regWidth, regAt_addr] at hds
      exact hds
    obtain ⟨l, n, hl, he⟩ := exec_writeRegister_frame h hwidth h17
    have hkeep (u : State) : (commitNamed d (d :: ds) u r).fs = u.fs ∧ (commitNamed d (d :: ds) u r).stimuli = u.stimuli ∧
        (commitNamed d (d :: ds) u r).rx = u.rx := by
      obtain ⟨-, -, hq, hrx, hfs, -⟩ := commit_frame (.writeRegister r.addr) (d :: ds) u
      rw [writeRegister_commit_cons] at hq hrx hfs
      exact ⟨hfs, hq, hrx⟩
    obtain ⟨hfs, hq, hrx⟩ := hkeep (s.framed rest (s.statusByte :: l) n)
    refine ⟨_, he, ?fault, by simp [hfs], by simp [hq], by simp [hrx, hl], by simp [hrx], fun hne => by simp at hne, fun h7 _ => ?reads⟩
    case fault =>
      rw [State.arm_fault, commitNamed_fault d _ _ h17]
      exact h.1
    case reads =>
      have harm (u : State) : u.arm.x = u.x := State.x_congr (by simp) (by simp) (by simp) (by simp) (by simp) (by simp) (by simp)
      have hold : (s.framed rest (s.statusByte :: l) n).readReg r = s.readReg r := State.readReg_congr rfl h7 h17
      rw [harm, State.x_addr, State.x_addr, ← hold]
      exact commitNamed_readReg_self h7 h17 hw hwidth

/-! ### NOP and the flushes (R150, R160, R161) -/

/-- Settles O30: NOP commits nothing. -/
theorem nopReturnsStatusOnly : Obligations.NopReturnsStatusOnly := by
  intro s b rest
  refine ⟨rfl, fun h => ?_, fun h => exec_rise_commits h h.1⟩
  exact (exec_frame_empty .nop h).trans (congrArg Host.Outcome.next (closeFrame_of_none h.1))

/-- With an empty TX FIFO nothing arms (R35). -/
theorem State.armCond_of_txq {s : State} (h : s.txq = []) : s.armCond = false := by
  simp [State.armCond, h]

/-- Settles O31: the commit empties the FIFO and disarms, and an empty FIFO does not arm again. -/
theorem flushTxEmptiesTxFifo : Obligations.FlushTxEmptiesTxFifo := by
  intro s b rest
  have hflush (u : State) : (commitFlushTx u).idleFrame.arm = { u.idleFrame with txq := [], txArmed := false } :=
    State.arm_eq_self _ (State.armCond_of_txq rfl)
  refine ⟨rfl, fun h => ?frame, fun h => ?rise⟩
  case frame =>
    have he : exec .flushTx s = .next { s.framed rest [s.statusByte] s.drawCount with txq := [], txArmed := false } := by
      rw [exec_frame_empty .flushTx h]
      exact congrArg Host.Outcome.next ((closeFrame_of_none h.1).trans (hflush _))
    refine ⟨he, fun hq harmed => he.trans ?_⟩
    rw [← hq, ← harmed]
    rfl
  case rise =>
    rw [exec_rise_commits (i := .flushTx) h h.1]
    exact congrArg Host.Outcome.next (hflush _)

/-- Settles O32: the commit empties the FIFO, and the two composed bytes then read as for an empty one. -/
theorem flushRxEmptiesRxFifo : Obligations.FlushRxEmptiesRxFifo := by
  intro s b rest
  refine ⟨rfl, fun h => ?frame, fun h => exec_rise_commits h h.1⟩
  refine ⟨_, (exec_frame_empty .flushRx h).trans (congrArg Host.Outcome.next (closeFrame_of_none h.1)), rfl, ?pipe, ?empty⟩
  case pipe =>
    rw [State.statusByte_pipe, State.rxPNo]
    simp [ruleOf, flushRxRule, State.exchanged]
  case empty =>
    rw [State.fifoStatusByte_low]
    simp [ruleOf, flushRxRule]

/-! ### READ_PAYLOAD (R162) -/

/-- A read of a latched entry's bytes. -/
theorem readPayload_resp {k : Nat} {v : Byte} {e : RxEntry} {s : State} (hr : s.rdl = some e) (h : e.payload[k]? = some v) :
    (ruleOf .readPayload).resp k s = (v, s) := by
  simp [ruleOf, readPayloadRule, respReadPayload, hr, byteOrDraw_of_lt s h]

/-- The commit of READ_PAYLOAD never faults. -/
theorem readPayload_commit (dbuf : List Byte) (s : State) :
    (ruleOf .readPayload).commit dbuf s =
      { s with rxq := if s.rdl ≠ none ∧ dbuf ≠ [] ∧ s.cfg.readPayloadPops = true then s.rxq.tail else s.rxq } := by
  simp only [ruleOf, readPayloadRule, commitReadPayload, Bool.and_eq_true, Option.isSome_iff_ne_none, Bool.not_eq_true',
    List.isEmpty_eq_false_iff, and_assoc]
  split <;> rfl

/-- The closing edge of READ_PAYLOAD. -/
theorem riseStep_readPayload {s : State} (hf : s.fault = none) :
    riseStep (ruleOf .readPayload) s =
      ({ s.idleFrame with
        rxq := if s.rdl ≠ none ∧ s.dbuf ≠ [] ∧ s.cfg.readPayloadPops = true then s.rxq.tail else s.rxq } : State).arm := by
  rw [riseStep_of_commit (readPayload_commit s.dbuf s) (by exact hf)]
  rfl

/-- Settles O33: the entry is latched with the command byte, and removed at the closing edge if a data byte was exchanged. -/
theorem readPayload_frame : Obligations.ReadPayloadFrame := by
  intro s b ds rest h hds
  refine ⟨fun e q hq hlen hn => ?full, fun hq => ?empty, fun hnil => ?noData⟩
  case full =>
    have hlatch : latchedEntry .readPayload s = some e := by simp [latchedEntry, hq]
    have hne : ds ≠ [] := List.length_pos_iff.1 hn
    rw [exec_frame_return (i := .readPayload) e.payload (P := fun t => t.rdl = some e) h (fun t r b ht => ht)
      (fun k t v ht hv => readPayload_resp ht hv) hlatch (hds.trans_eq hlen.symm) hlen.le, riseStep_readPayload (by exact h.1)]
    simp [State.exchanged, hlatch, hne, hq, State.framed, State.idleFrame]
  case empty =>
    have hlatch : latchedEntry .readPayload s = none := by simp [latchedEntry, hq]
    obtain ⟨l, n, hl, he⟩ := exec_frame_within (i := .readPayload) h hds
    refine ⟨l, n, hl, ?_⟩
    rw [he, riseStep_readPayload (by exact h.1)]
    simp [State.exchanged, hlatch, State.framed, State.idleFrame]
  case noData =>
    subst hnil
    rw [exec_frame_empty .readPayload h, riseStep_readPayload (by exact h.1)]
    simp [State.exchanged, State.framed, State.idleFrame]

/-- Settles O34: each bus step of READ_PAYLOAD by itself. -/
theorem readPayloadByteByByte : Obligations.ReadPayloadByteByByte := by
  intro s b rest
  refine ⟨fun ⟨hf, hs, h0, hq⟩ => ?command, fun e h hk hr hlen => ?latched, fun h hk hr => ?free, fun ⟨hf, hs, hq⟩ => ?rise⟩
  case command =>
    rw [exec_command hf hs h0 hq]
    have hidx : (1 : Nat) = s.fidx + 1 := by rw [h0]
    rw [hidx]
    rfl
  case latched =>
    have hv := List.getElem?_eq_getElem (hk.trans_eq hlen.symm)
    exact ⟨_, hv, exec_data_returns h hk (readPayload_resp (s := s.taking rest) hr hv)⟩
  case free =>
    obtain ⟨hf, hs, h0, hq⟩ := h
    obtain ⟨hover, -⟩ | ⟨-, n, hd⟩ := dataByte_cases .readPayload b (s.taking rest)
    · exact absurd hover (Nat.not_le.2 hk)
    · exact ⟨_, n, (exec_data hf hs h0 hq).trans (congrArg Host.Outcome.next hd)⟩
  case rise =>
    rw [exec_rise hf hs hq, riseStep_readPayload (s := s.taking rest) hf]
    rfl

/-! ### WRITE_PAYLOAD (R163) -/

theorem writePayload_commit_nil (s : State) : (ruleOf .writePayload).commit [] s = s := rfl

/-- With data and room, the commit appends the data, filled up with free bytes. -/
theorem writePayload_commit_room {dbuf : List Byte} {s : State} (hd : dbuf ≠ []) (hroom : s.txq.length ≠ s.cfg.fifoDepth) :
    ∃ free n, free.length = payloadWidth - dbuf.length ∧
      (ruleOf .writePayload).commit dbuf s = { s with txq := s.txq ++ [dbuf ++ free], drawCount := n } := by
  refine ⟨_, s.drawCount + (payloadWidth - dbuf.length), State.drawBytes_length s _, ?_⟩
  have hfull : s.txFull = false := by simpa [State.txFull] using hroom
  simp [ruleOf, writePayloadRule, commitWritePayload, hd, hfull]
  rfl

/-- Settles O35: the cases of the commit, at the closing edge of an open frame and of a whole one. -/
theorem writePayloadAppendsOrOverflows : Obligations.WritePayloadAppendsOrOverflows := by
  intro s b ds rest
  refine ⟨fun h hn hds hroom => ?frame, fun h => ?frameEmpty, fun h hn _ hroom => ?rise, fun h hd => ?riseEmpty,
    fun h hn hfull => ?overflow⟩
  case frame =>
    obtain ⟨l, n, hl, he⟩ := exec_frame_within (i := .writePayload) h hds
    obtain ⟨free, n', hfree, hc⟩ := writePayload_commit_room (List.length_pos_iff.1 hn)
      (s := s.exchanged .writePayload ds rest (s.statusByte :: l) n) hroom
    refine ⟨l, free, n', hl, hfree, he.trans (congrArg Host.Outcome.next ?_)⟩
    rw [State.rises_exchanged hc (by exact h.1)]
    rfl
  case frameEmpty =>
    exact (exec_frame_empty .writePayload h).trans (congrArg Host.Outcome.next (closeFrame_of_none h.1))
  case rise =>
    obtain ⟨free, n, hfree, hc⟩ := writePayload_commit_room (List.length_pos_iff.1 hn) (s := s.taking rest) hroom
    refine ⟨free, n, hfree, ?_⟩
    rw [exec_rise_commits h (by rw [hc]; exact h.1), hc]
    rfl
  case riseEmpty =>
    rw [exec_rise_commits h] <;> rw [hd, writePayload_commit_nil]
    · rfl
    · exact h.1
  case overflow => exact exec_rise_faults h (writePayload_commit_full hn hfull)

end Sys2Proof.Machine

/-! PROOF. The host's mode changes (43_mode_sequencer.md R202, R203) and its boot sequence (70_reset_and_hazards.md R322): with
the control line low nothing arms, so a list of register writes leaves the block as their commits do, one after the other. -/

namespace Sys2Proof.Machine

/-! ### Runs, one after the other -/

theorem run_add {m : Nat} (n : Nat) {s t : State} (h : Host.Core.run Sys2Proof.core m s = .next t) :
    Host.Core.run Sys2Proof.core (m + n) s = Host.Core.run Sys2Proof.core n t := by
  induction m generalizing s with
  | zero =>
    cases h
    rw [Nat.zero_add]
  | succ m ih =>
    obtain ⟨u, hu, hrest⟩ := run_succ_next h
    rw [Nat.succ_add, run_succ_of_step (m + n) hu, ih hrest]

/-! ### The control line low (R35) -/

theorem State.armCond_of_ce_low {s : State} (h : s.ce = .low) : s.armCond = false := by
  simp [State.armCond, h]

/-- A step of the control line after which nothing arms. -/
theorem step_ce_of_not_armCond {s : State} {level : Level} {rest : List Stimulus} (hf : s.fault = none)
    (hq : s.stimuli = .ce level :: rest) (hc : ({ s with ce := level } : State).armCond = false) :
    step s = .next { s with stimuli := rest, ce := level } := by
  rw [step_ce hf hq]
  exact congrArg Host.Outcome.next (State.arm_eq_self _ hc)

/-! ### A register write's frame, the line low -/

/-- The host's frame of a write: the register's command byte, then the data (R105). -/
theorem writeRegisterFrame_toList (r : RegName) (data : List Byte) :
    (writeRegisterFrame (hostAddr r) (bytesOf data)).toList = (0x20#8 ||| (hostAddr r &&& 0x1F#8)) :: data := rfl

theorem decode_hostWrite (cfg : Config) (r : RegName) :
    decode cfg (0x20#8 ||| (hostAddr r &&& 0x1F#8)) = .command (.writeRegister r.addr) := by
  cases r <;> rfl

/-- A register and data that a write of it takes: some data, at most its width, and not FIFO_STATUS. -/
def WriteFits (cfg : Config) (w : RegName × List Byte) : Prop :=
  w.1 ≠ .fifoStatus ∧ w.2 ≠ [] ∧ w.2.length ≤ w.1.width cfg

/-- What the host's register write does to the block (R121). -/
def hostWrite (s : State) (w : RegName × List Byte) : State := commitWriteRegister w.1.addr w.2 s

theorem hostWrite_cons (s : State) (r : RegName) (d : Byte) (ds : List Byte) :
    hostWrite s (r, d :: ds) = commitNamed d (d :: ds) s r := writeRegister_commit_cons r d ds s

/-- The frame of a register write as a stimulus. -/
def hostWriteFrame (w : RegName × List Byte) : Stimulus := .frame (writeRegisterFrame (hostAddr w.1) (bytesOf w.2)).toList

/-- Between frames, without a fault, the control line low, with the steps `q` to come. -/
structure ReadyLow (s : State) (q : List Stimulus) : Prop where
  fault : s.fault = none
  fs : s.fs = .idle
  ce : s.ce = .low
  stimuli : s.stimuli = q

/-- States with the same block commit a write to states with the same block. -/
theorem KeepsBlock.hostWrite {s t : State} (h : KeepsBlock s t) (w : RegName × List Byte) :
    KeepsBlock (hostWrite s w) (hostWrite t w) := by
  obtain ⟨r, _ | ⟨d, ds⟩⟩ := w
  · exact h
  · rw [hostWrite_cons, hostWrite_cons]
    obtain ⟨hcfg, hregs, hrx, htx, hmax, hmode, hce, harmed, htxq, hrxq⟩ := h
    cases r <;> constructor <;>
      simp [commitNamed, commitConfig, commitRxAddrP0, commitTxAddr, commitPlain, hcfg, hregs, hrx, htx, hmax, hmode, hce, harmed,
        htxq, hrxq]

/-- A write of a register's frame completes and changes the block as its commit does. -/
theorem step_hostWrite {s : State} {w : RegName × List Byte} {q : List Stimulus} (h : ReadyLow s (hostWriteFrame w :: q))
    (hw : WriteFits s.cfg w) : ∃ t, step s = .next t ∧ ReadyLow t q ∧ KeepsBlock (hostWrite s w) t := by
  obtain ⟨hf, hs, hce, hq⟩ := h
  obtain ⟨r, data⟩ := w
  obtain ⟨hr, hne, hlen⟩ := hw
  obtain ⟨d, ds, rfl⟩ := List.exists_cons_of_ne_nil hne
  have hnext : FrameNext s _ (d :: ds) q := ⟨hf, hs, hq⟩
  obtain ⟨l, n, -, he⟩ := exec_writeRegister_frame hnext hlen hr
  obtain ⟨-, hce', hq', -, hfs', -⟩ := commit_frame (.writeRegister r.addr) (d :: ds) (s.framed q (s.statusByte :: l) n)
  rw [writeRegister_commit_cons] at hce' hq' hfs'
  rw [State.arm_eq_self _ (State.armCond_of_ce_low (hce'.trans hce))] at he
  refine ⟨_, (step_frame hnext (decode_hostWrite s.cfg r)).trans he,
    ⟨(commitNamed_fault d _ _ hr).trans hf, hfs', hce'.trans hce, hq'⟩, ?_⟩
  rw [← hostWrite_cons]
  exact KeepsBlock.hostWrite (by constructor <;> rfl) (r, d :: ds)

/-- No write changes the parameters. -/
theorem hostWrite_cfg (s : State) (w : RegName × List Byte) : (hostWrite s w).cfg = s.cfg :=
  (commit_frame (.writeRegister w.1.addr) w.2 s).1

/-- The frames of a list of writes complete and change the block as their commits do, in order. -/
theorem run_hostWrites {ws : List (RegName × List Byte)} {s : State} {q : List Stimulus}
    (h : ReadyLow s (ws.map hostWriteFrame ++ q)) (hw : ∀ w ∈ ws, WriteFits s.cfg w) :
    ∃ t, Host.Core.run Sys2Proof.core ws.length s = .next t ∧ ReadyLow t q ∧ KeepsBlock (ws.foldl hostWrite s) t := by
  induction ws generalizing s with
  | nil => exact ⟨s, rfl, h, .refl s⟩
  | cons w ws ih =>
    obtain ⟨hfirst, hothers⟩ := List.forall_mem_cons.1 hw
    obtain ⟨u, hu, hready, hk⟩ := step_hostWrite h hfirst
    have hcfg : u.cfg = s.cfg := hk.cfg.trans (hostWrite_cfg s w)
    obtain ⟨t, ht, hready', hk'⟩ := ih hready (by rwa [hcfg])
    refine ⟨t, (run_succ_of_step _ hu).trans ht, hready', KeepsBlock.trans ?_ hk'⟩
    exact List.foldl_rel (r := KeepsBlock) hk fun w _ _ _ hkeep => hkeep.hostWrite w

/-! ### The mode changes -/

/-- CE low before anything else of a sequence. -/
theorem step_ceLow {s : State} {q : List Stimulus} (hf : s.fault = none) (hs : s.fs = .idle)
    (hq : s.stimuli = .ce .low :: q) :
    step s = .next { s with stimuli := q, ce := .low } ∧ ReadyLow { s with stimuli := q, ce := .low } q :=
  ⟨step_ce_of_not_armCond hf hq (State.armCond_of_ce_low rfl), hf, hs, rfl, rfl⟩

/-- CE low and the CONFIG write of a mode change: the CONFIG byte is stored and its mode entered, the line low. -/
theorem run_configWrite {s : State} {c : Byte} {q : List Stimulus} (hf : s.fault = none) (hs : s.fs = .idle)
    (hq : s.stimuli = .ce .low :: .frame (configFrame c).toList :: q) :
    ∃ t, Host.Core.run Sys2Proof.core 2 s = .next t ∧ ReadyLow t q ∧ KeepsBlock (commitConfig c { s with ce := .low }) t := by
  obtain ⟨hlow, hready⟩ := step_ceLow hf hs hq
  obtain ⟨t, ht, hready', hk⟩ := step_hostWrite (w := (.config, [c])) hready ⟨by simp, by simp, le_rfl⟩
  refine ⟨t, (run_succ_of_step 1 hlow).trans (run_succ_of_step 0 ht), hready', KeepsBlock.trans ?_ hk⟩
  constructor <;> rfl

/-- Settles O57: the line stays low throughout, and the CONFIG byte selects Transmit. -/
theorem receiveToTransmit : Obligations.ReceiveToTransmit := by
  intro s c rest _ hf hs hprx _ hq
  obtain ⟨u, hu, hready, hk⟩ := run_configWrite hf hs hq
  obtain ⟨hlow, hready'⟩ := step_ceLow hready.fault hready.fs hready.stimuli
  have hmode : u.mode = .transmit := hk.mode.trans (if_neg (by simpa using hprx))
  refine ⟨_, (run_add 1 hu).trans (run_succ_of_step 0 hlow), hready'.fault, rfl, hready'.fs, rfl, hmode, hk.regs, ?_,
    State.armCond_of_ce_low rfl, hk.txArmed, hk.txq, hk.rxq, hk.rxDr, hk.txDs, hk.maxRt⟩
  simp [State.listening]

/-- Settles O58: the CONFIG byte selects Receive, in which the raised line arms nothing. -/
theorem transmitToReceive : Obligations.TransmitToReceive := by
  intro s c rest _ hf hs hprx hq
  obtain ⟨u, hu, hready, hk⟩ := run_configWrite hf hs hq
  have hmode : u.mode = .receive := hk.mode.trans (if_pos hprx)
  have hhigh := step_ce_of_not_armCond hready.fault hready.stimuli (State.armCond_of_receive hmode)
  refine ⟨_, (run_add 1 hu).trans (run_succ_of_step 0 hhigh), hready.fault, rfl, hready.fs, rfl, hmode, hk.regs,
    fun hpwr => ?_, hk.txArmed, hk.txq, hk.rxq, hk.rxDr, hk.txDs, hk.maxRt⟩
  have hup : u.pwrUp = true := by
    unfold State.pwrUp
    rw [hk.regs, hk.cfg]
    exact hpwr
  refine ⟨(State.listening_iff _).2 ⟨hmode, rfl, hup⟩, fun hroom p hp => ?_⟩
  obtain ⟨henabled, -⟩ := packetReceivedEvent { u with stimuli := .evRx p :: rest, ce := .high } p rest hready.fault rfl hp
  exact ⟨_, henabled ⟨hmode, rfl, hup, hroom⟩⟩

/-! ### Boot -/

/-- The frame of FLUSH_RX, the line low, empties the RX FIFO. -/
theorem step_hostFlushRx {s : State} {q : List Stimulus} (h : ReadyLow s (.frame (commandFrame 0xE2#8 #v[]).toList :: q)) :
    ∃ t, step s = .next t ∧ ReadyLow t q ∧ KeepsBlock (commitFlushRx s) t := by
  obtain ⟨hf, hs, hce, hq⟩ := h
  have hnext : FrameNext s 0xE2#8 [] q := ⟨hf, hs, hq⟩
  have hrise : riseStep (ruleOf .flushRx) (s.exchanged .flushRx [] q [s.statusByte] s.drawCount) =
      commitFlushRx (s.framed q [s.statusByte] s.drawCount) :=
    (State.rises_exchanged (i := .flushRx) rfl (by exact hf)).trans (State.arm_eq_self _ (State.armCond_of_ce_low hce))
  refine ⟨_, (step_frame hnext (decode_flushRx s.cfg)).trans (exec_frame_empty .flushRx hnext), ?_⟩
  rw [hrise]
  exact ⟨⟨hf, rfl, hce, rfl⟩, by constructor <;> rfl⟩

theorem KeepsBlock.commitFlushRx {s t : State} (h : KeepsBlock s t) : KeepsBlock (commitFlushRx s) (commitFlushRx t) :=
  ⟨h.cfg, h.regs, h.rxDr, h.txDs, h.maxRt, h.mode, h.ce, h.txArmed, h.txq, rfl⟩

/-- The writes of the boot sequence fit their registers. -/
theorem bootWrites_fit {cfg : Config} {v : BootBytes} (hcfg : cfg.wf) (hv : v.wf cfg) :
    ∀ w ∈ bootWrites v, WriteFits cfg w := by
  obtain ⟨⟨h3, -⟩, -⟩ := hcfg
  obtain ⟨-, hrx, htx⟩ := hv
  have hne {l : List Byte} (hl : l.length = cfg.aw) : l ≠ [] := by
    rintro rfl
    simp at hl
    omega
  simp [bootWrites, WriteFits, RegName.width, hne hrx, hne htx, hrx, htx]

/-- A write of a whole address register replaces it (R125). -/
theorem hostWrite_rxAddrP0 {s : State} {data : List Byte} (hne : data ≠ []) (hlen : data.length = s.regs.rxAddrP0.length) :
    hostWrite s (.rxAddrP0, data) = { s with regs := { s.regs with rxAddrP0 := data } } := by
  obtain ⟨d, ds, rfl⟩ := List.exists_cons_of_ne_nil hne
  rw [hostWrite_cons, commitNamed, commitRxAddrP0, writeBytes_eq hlen.le, hlen, List.drop_length, List.append_nil]

theorem hostWrite_txAddr {s : State} {data : List Byte} (hne : data ≠ []) (hlen : data.length = s.regs.txAddr.length) :
    hostWrite s (.txAddr, data) = { s with regs := { s.regs with txAddr := data } } := by
  obtain ⟨d, ds, rfl⟩ := List.exists_cons_of_ne_nil hne
  rw [hostWrite_cons, commitNamed, commitTxAddr, writeBytes_eq hlen.le, hlen, List.drop_length, List.append_nil]

/-- The commits of the boot sequence, one after the other (R256). -/
theorem bootWrites_effect {s : State} {v : BootBytes} (hcfg : s.cfg.wf) (hw : s.regs.widths s.cfg.aw) (hv : v.wf s.cfg) :
    (bootWrites v).foldl hostWrite s =
      { s with
        regs := { s.regs with config := v.config, setupAw := v.setupAw, setupRetr := v.setupRetr, rxAddrP0 := v.rxAddrP0,
                              txAddr := v.txAddr, rfCh := v.rfCh, rfSetup := v.rfSetup, dynpd := v.dynpd,
                              feature := v.feature, enAa := v.enAa }
        mode := .receive, rxDr := false, txDs := false, maxRt := false } := by
  obtain ⟨hrx, htx⟩ := hw
  have ⟨⟨hprx, _⟩, hvrx, hvtx⟩ := hv
  have hne {w : RegName × List Byte} (hmem : w ∈ bootWrites v) : w.2 ≠ [] := by
    obtain ⟨-, hdata, -⟩ := bootWrites_fit hcfg hv w hmem
    exact hdata
  have hnerx : v.rxAddrP0 ≠ [] := hne (w := (.rxAddrP0, v.rxAddrP0)) (by simp [bootWrites])
  have hnetx : v.txAddr ≠ [] := hne (w := (.txAddr, v.txAddr)) (by simp [bootWrites])
  simp [bootWrites, hostWrite_cons, hostWrite_rxAddrP0, hostWrite_txAddr, commitNamed, commitConfig, commitPlain,
    RegFile.setPlain, State.clearFlags, modeOf, hprx, hnerx, hnetx, hrx, htx, hvrx, hvtx]

/-- Settles O59: the line is low until the last step, by which CONFIG has selected Receive. -/
theorem bootState : Obligations.BootState := by
  intro s v rest hinv hf hs hv hq
  have hseq : initializeSeq v ++ rest = .ce .low ::
      ((bootWrites v).map hostWriteFrame ++ .frame (commandFrame 0xE2#8 #v[]).toList :: .ce .high :: rest) := rfl
  obtain ⟨hlow, hready⟩ := step_ceLow hf hs (hq.trans hseq)
  obtain ⟨u, hu, hready, hk⟩ := run_hostWrites hready (bootWrites_fit hinv.cfgWf hv)
  rw [bootWrites_effect (s := { s with stimuli := _, ce := .low }) hinv.cfgWf hinv.widths hv] at hk
  obtain ⟨w, hwstep, hready, hflush⟩ := step_hostFlushRx hready
  have hk : KeepsBlock _ w := (KeepsBlock.commitFlushRx hk).trans hflush
  have hhigh := step_ce_of_not_armCond hready.fault hready.stimuli (State.armCond_of_receive hk.mode)
  have hup : w.pwrUp = true := by
    unfold State.pwrUp
    rw [hk.regs, hk.cfg]
    obtain ⟨⟨-, hpwr⟩, -⟩ := hv
    exact hpwr
  have hrun : Host.Core.run Sys2Proof.core 14 s = .next { w with stimuli := rest, ce := .high } := by
    rw [run_succ_of_step 13 hlow]
    exact (run_add 2 hu).trans ((run_succ_of_step 1 hwstep).trans (run_succ_of_step 0 hhigh))
  exact ⟨_, hrun, hready.fault, rfl, hk.regs, hk.mode, rfl, (State.listening_iff _).2 ⟨hk.mode, rfl, hup⟩, hk.rxDr, hk.txDs,
    hk.maxRt, hk.rxq, hk.txq, hk.txArmed, hready.fs⟩

end Sys2Proof.Machine

/-! PROOF. The recorded mode of the host (44_host_sequences.md R257). In a run the mode and the bytes of the open frame follow the
host's own micro-steps alone, and each operation of the driver is a list of steps whose effect on the mode is that of its CONFIG
writes. -/

namespace Sys2Proof.Machine

/-! ### What the host's micro-steps do to the frame and the mode -/

/-- The mode after a frame of the bytes given: a CONFIG write with data selects it (R201). -/
def frameMode (cfg : Config) (m : Mode) : List Byte → Mode
  | b :: d :: _ => if decode cfg b = .command (.writeRegister RegName.config.addr) then modeOf cfg d else m
  | _ => m

/-- One micro-step of the host on the bytes of the open frame (none between frames) and the mode. -/
def hostMove (cfg : Config) : Option (List Byte) × Mode → Stimulus → Option (List Byte) × Mode
  | (_, m), .csnFall => (some [], m)
  | (some bs, m), .byte b => (some (bs ++ [b]), m)
  | (some bs, m), .csnRise => (none, frameMode cfg m bs)
  | p, _ => p

theorem hostMove_bytes (cfg : Config) (tx bs : List Byte) (m : Mode) :
    (tx.map Stimulus.byte).foldl (hostMove cfg) (some bs, m) = (some (bs ++ tx), m) := by
  induction tx generalizing bs with
  | nil => simp
  | cons b tx ih => simp [hostMove, ih]

/-- A frame's micro-steps open it, exchange its bytes and close it. -/
theorem hostMove_microSteps (cfg : Config) (tx : List Byte) (o : Option (List Byte)) (m : Mode) :
    (microSteps tx).foldl (hostMove cfg) (o, m) = (none, frameMode cfg m tx) := by
  rw [microSteps, List.foldl_cons, List.foldl_append]
  show List.foldl (hostMove cfg) ((tx.map Stimulus.byte).foldl (hostMove cfg) (some [], m)) [.csnRise] = _
  rw [hostMove_bytes]
  rfl

/-! ### The block follows them -/

/-- A frame is open in which the bytes `bs` have been exchanged, the first of them a command (R99). -/
structure OpenWith (bs : List Byte) (s : State) : Prop where
  fs : s.fs ≠ .idle
  fidx : s.fidx = bs.length
  dbuf : s.dbuf = bs.tail
  unlatched : bs = [] → s.cmd = none
  latched : ∀ b, bs.head? = some b → ∃ i, decode s.cfg b = .command i ∧ s.cmd = some i

/-- The frame sequencer and the mode are as the host's micro-steps leave them. -/
structure Follows (p : Option (List Byte) × Mode) (s : State) : Prop where
  mode : s.mode = p.2
  idle : p.1 = none → s.fs = .idle
  opened : ∀ bs, p.1 = some bs → OpenWith bs s

theorem Follows.idle_of_idle {p : Option (List Byte) × Mode} {s : State} (h : Follows p s) (hs : s.fs = .idle) :
    p = (none, s.mode) := by
  obtain ⟨_ | bs, m⟩ := p
  · rw [h.mode]
  · exact absurd hs (h.opened bs rfl).fs

theorem Follows.open_of_not_idle {p : Option (List Byte) × Mode} {s : State} (h : Follows p s) (hs : s.fs ≠ .idle) :
    ∃ bs, p = (some bs, s.mode) ∧ OpenWith bs s := by
  obtain ⟨_ | bs, m⟩ := p
  · exact absurd (h.idle rfl) hs
  · exact ⟨bs, by rw [h.mode], h.opened bs rfl⟩

theorem follows_idle {s : State} (hs : s.fs = .idle) : Follows (none, s.mode) s :=
  ⟨rfl, fun _ => hs, fun _ h => by cases h⟩

theorem OpenWith.follows {bs : List Byte} {m : Mode} {s : State} (h : OpenWith bs s) (hm : s.mode = m) :
    Follows (some bs, m) s :=
  ⟨hm, fun hn => absurd hn (by simp), fun _ hb => Option.some.inj hb ▸ h⟩

theorem openWith_openFrame (s : State) : OpenWith [] s.openFrame := ⟨by simp, rfl, rfl, fun _ => rfl, by simp⟩

theorem OpenWith.taking {bs : List Byte} {s : State} (h : OpenWith bs s) (q : List Stimulus) : OpenWith bs (s.taking q) :=
  ⟨h.fs, h.fidx, h.dbuf, h.unlatched, h.latched⟩

/-- The frame sequencer and the mode of two states are the same. -/
theorem Follows.congr {p : Option (List Byte) × Mode} {s t : State} (h : Follows p s) (hcfg : t.cfg = s.cfg)
    (hmode : t.mode = s.mode) (hfs : t.fs = s.fs) (hfidx : t.fidx = s.fidx) (hcmd : t.cmd = s.cmd) (hdbuf : t.dbuf = s.dbuf) :
    Follows p t := by
  refine ⟨hmode.trans h.mode, fun hn => hfs.trans (h.idle hn), fun bs hb => ?_⟩
  have ho := h.opened bs hb
  exact ⟨hfs ▸ ho.fs, hfidx.trans ho.fidx, hdbuf.trans ho.dbuf, fun hn => hcmd.trans (ho.unlatched hn),
    by rw [hcfg, hcmd]; exact ho.latched⟩

/-- The closing edge of a frame with the bytes `b :: ds` selects the mode of that frame. -/
theorem riseStep_frameMode {i : Instr} {b : Byte} {ds : List Byte} {s : State} (hf : s.fault = none)
    (hd : decode s.cfg b = .command i) (hdbuf : s.dbuf = ds) :
    (riseStep (ruleOf i) s).mode = frameMode s.cfg s.mode (b :: ds) := by
  by_cases hi : i = .writeRegister RegName.config.addr ∧ ds ≠ []
  · obtain ⟨rfl, hne⟩ := hi
    obtain ⟨d, ds', rfl⟩ := List.exists_cons_of_ne_nil hne
    obtain ⟨-, hmode⟩ := riseStep_config hf hdbuf rfl
    rw [hmode, frameMode, if_pos hd]
  · have hsame : (riseStep (ruleOf i) s).mode = s.mode := by_contra fun hne => hi (hdbuf ▸ riseStep_mode_ne hf hne)
    rw [hsame]
    cases ds with
    | nil => rfl
    | cons d ds' =>
      rw [frameMode, if_neg]
      intro he
      exact hi ⟨Decoded.command.inj (hd.symm.trans he), by simp⟩

/-- A closing edge that raises no fault leaves the sequencer Idle. -/
theorem riseStep_fs {i : Instr} {s : State} (hf : s.fault = none) (h : (riseStep (ruleOf i) s).fault = none) :
    (riseStep (ruleOf i) s).fs = .idle := by
  obtain ⟨v, -, he⟩ | ⟨r, he⟩ := riseStep_effect i hf <;> rw [he] at h ⊢
  · simp
  · simp at h

/-- A command byte is the first byte of an open frame. -/
theorem OpenWith.commandByte {i : Instr} {b : Byte} {s : State} (h : OpenWith [] s) (hd : decode s.cfg b = .command i) :
    OpenWith [b] (commandByte i (ruleOf i) s) := by
  obtain ⟨x, hx, -⟩ := commandByte_eq i s
  rw [hx]
  refine ⟨by simp, by simp [h.fidx], h.dbuf, by simp, fun b' hb => ⟨i, ?_, rfl⟩⟩
  obtain rfl : b = b' := Option.some.inj hb
  exact hd

/-- A data byte that raises no fault is the next byte of the open frame. -/
theorem OpenWith.dataByte {i : Instr} {bs : List Byte} {b : Byte} {s : State} (h : OpenWith bs s) (h0 : s.fidx ≠ 0)
    (hn : (dataByte i (ruleOf i) b s).fault = none) : OpenWith (bs ++ [b]) (dataByte i (ruleOf i) b s) := by
  have hne : bs ≠ [] := by
    rintro rfl
    exact h0 h.fidx
  obtain ⟨-, hd⟩ | ⟨-, n, hd⟩ := dataByte_cases i b s <;> rw [hd] at hn ⊢
  · simp at hn
  · refine ⟨h.fs, by simp [h.fidx], by simp [h.dbuf, List.tail_append_of_ne_nil hne], by simp, fun b' hb => h.latched b' ?_⟩
    rwa [List.head?_append_of_ne_nil _ hne] at hb

/-- A step of the radio link leaves the frame sequencer and the mode (R211). -/
theorem Follows.step_radio {p : Option (List Byte) × Mode} {s t : State} {x : Stimulus} {q : List Stimulus} (h : Follows p s)
    (hq : s.stimuli = x :: q) (hstep : step s = .next t) (hx : x.byHost = false) : Follows p t := by
  obtain ⟨hf, -⟩ := step_next hstep
  have hevent : x = .evTxDs ∨ x = .evMaxRt ∨ ∃ p, x = .evRx p := by
    cases x with
    | evTxDs => exact .inl rfl
    | evMaxRt => exact .inr (.inl rfl)
    | evRx p => exact .inr (.inr ⟨p, rfl⟩)
    | _ => cases hx
  obtain ⟨hframe, -⟩ := eventsFrame s x q hf hq hevent
  obtain ⟨hmode, -, -, hfs, hfidx, hcmd, hdbuf, -⟩ := hframe t hstep
  exact h.congr (step_cfg hstep) hmode hfs hfidx hcmd hdbuf

/-- The sequencer between frames and a mode are followed by themselves. -/
theorem follows_none {m : Mode} {t : State} (hs : t.fs = .idle) (hm : t.mode = m) : Follows (none, m) t :=
  hm ▸ follows_idle hs

/-- A step of the host that raises no fault moves them as its micro-steps do. -/
theorem Follows.step_host {p : Option (List Byte) × Mode} {s t : State} {x : Stimulus} {q : List Stimulus} (h : Follows p s)
    (hq : s.stimuli = x :: q) (hstep : step s = .next t) (ht : t.fault = none) (hx : x.byHost = true) :
    Follows (x.microSteps.foldl (hostMove s.cfg) p) t := by
  obtain ⟨hf, hm⟩ := step_next hstep
  cases hm with
  | waits hq' => exact absurd (hq.symm.trans hq') (by simp)
  | opens rest hq' hs =>
    obtain ⟨rfl, rfl⟩ := List.cons.inj (hq.symm.trans hq')
    rw [h.idle_of_idle hs]
    exact (openWith_openFrame (s.taking q)).follows rfl
  | rejects | frameRejects => simp at ht
  | command i b rest hq' hs h0 hd =>
    obtain ⟨rfl, rfl⟩ := List.cons.inj (hq.symm.trans hq')
    obtain ⟨bs, rfl, ho⟩ := h.open_of_not_idle hs
    obtain rfl : bs = [] := List.eq_nil_of_length_eq_zero (ho.fidx.symm.trans h0)
    exact ((ho.taking q).commandByte hd).follows (keepsBlock_commandByte i s q).mode
  | data i b rest hq' hs h0 hc =>
    obtain ⟨rfl, rfl⟩ := List.cons.inj (hq.symm.trans hq')
    obtain ⟨bs, rfl, ho⟩ := h.open_of_not_idle hs
    exact ((ho.taking q).dataByte h0 ht).follows (keepsBlock_dataByte i b s q).mode
  | rises i rest hq' hs hc =>
    obtain ⟨rfl, rfl⟩ := List.cons.inj (hq.symm.trans hq')
    obtain ⟨bs, rfl, ho⟩ := h.open_of_not_idle hs
    cases bs with
    | nil => exact absurd (hc.symm.trans (ho.unlatched rfl)) (by simp)
    | cons b ds =>
      obtain ⟨j, hd, hj⟩ := ho.latched b rfl
      obtain rfl : i = j := Option.some.inj (hc.symm.trans hj)
      exact follows_none (riseStep_fs (s := s.taking q) hf ht) (riseStep_frameMode (s := s.taking q) hf hd ho.dbuf)
  | risesEmpty rest hq' hs hc =>
    obtain ⟨rfl, rfl⟩ := List.cons.inj (hq.symm.trans hq')
    obtain ⟨bs, rfl, ho⟩ := h.open_of_not_idle hs
    cases bs with
    | nil => exact follows_none (by simp) (by simp [frameMode])
    | cons b ds =>
      obtain ⟨j, -, hj⟩ := ho.latched b rfl
      exact absurd (hc.symm.trans hj) (by simp)
  | frameEmpty rest hq' hs =>
    obtain ⟨rfl, rfl⟩ := List.cons.inj (hq.symm.trans hq')
    rw [h.idle_of_idle hs, Stimulus.microSteps, hostMove_microSteps]
    exact follows_none (by simp) (by simp [frameMode])
  | frameRuns i b ds rest hq' hs hd =>
    obtain ⟨rfl, rfl⟩ := List.cons.inj (hq.symm.trans hq')
    rw [h.idle_of_idle hs, Stimulus.microSteps, hostMove_microSteps]
    obtain ⟨u, hu, ⟨hn, he⟩ | ⟨hn, hdbuf, he⟩⟩ := frameStep_cases i ds (s := s.taking q) hf <;> rw [he] at ht ⊢
    · exact absurd ht hn
    · have hcfg : u.cfg = s.cfg := hu.cfg
      have hmode : u.mode = s.mode := hu.mode
      rw [← hcfg, ← hmode]
      exact follows_none (riseStep_fs hn ht) (riseStep_frameMode hn (hcfg ▸ hd) hdbuf)
  | ce level rest hq' =>
    obtain ⟨rfl, rfl⟩ := List.cons.inj (hq.symm.trans hq')
    exact h.congr (by simp) (by simp) (by simp) (by simp) (by simp) (by simp)
  | evTxDs rest hq' | evMaxRt rest hq' | evRx _ rest hq' =>
    obtain ⟨rfl, -⟩ := List.cons.inj (hq.symm.trans hq')
    exact absurd hx (by simp [Stimulus.byHost])

/-! ### Along a run -/

/-- A step from a fault gives no next state, so a run that ends without a fault had none before its last step. -/
theorem fault_none_of_run {k : Nat} {s t : State} (h : Host.Core.run Sys2Proof.core k s = .next t) (ht : t.fault = none) :
    s.fault = none := by
  cases k with
  | zero => cases h; exact ht
  | succ k =>
    obtain ⟨u, hu, -⟩ := run_succ_next h
    exact (step_next hu).1

/-- A step takes its stimulus (20_memory.md R74). -/
theorem step_stimuli {s t : State} {x : Stimulus} {q : List Stimulus} (hq : s.stimuli = x :: q) (h : step s = .next t) :
    t.stimuli = q := by
  obtain ⟨-, hm⟩ := step_next h
  cases hm with
  | waits hq' => exact absurd (hq.symm.trans hq') (by simp)
  | opens rest hq' | rejects b rest r hq' | frameRejects b ds rest r hq' =>
    obtain ⟨-, rfl⟩ := List.cons.inj (hq.symm.trans hq')
    rfl
  | command i b rest hq' =>
    obtain ⟨-, rfl⟩ := List.cons.inj (hq.symm.trans hq')
    rw [commandByte_taking]
    rfl
  | data i b rest hq' =>
    obtain ⟨-, rfl⟩ := List.cons.inj (hq.symm.trans hq')
    rw [dataByte_taking]
    rfl
  | rises i rest hq' =>
    obtain ⟨-, rfl⟩ := List.cons.inj (hq.symm.trans hq')
    rw [riseStep_taking]
    rfl
  | frameRuns i b ds rest hq' =>
    obtain ⟨-, rfl⟩ := List.cons.inj (hq.symm.trans hq')
    rw [frameStep_taking]
    rfl
  | risesEmpty rest hq' | frameEmpty rest hq' | ce level rest hq' | evTxDs rest hq' | evMaxRt rest hq' | evRx p rest hq' =>
    obtain ⟨-, rfl⟩ := List.cons.inj (hq.symm.trans hq')
    simp

/-- What the host's own micro-steps in a run do to the open frame and the mode. -/
def hostMoves (cfg : Config) (run : List Stimulus) (p : Option (List Byte) × Mode) : Option (List Byte) × Mode :=
  ((run.filter Stimulus.byHost).flatMap Stimulus.microSteps).foldl (hostMove cfg) p

theorem hostMoves_host (cfg : Config) {x : Stimulus} (hx : x.byHost = true) (run : List Stimulus)
    (p : Option (List Byte) × Mode) : hostMoves cfg (x :: run) p = hostMoves cfg run (x.microSteps.foldl (hostMove cfg) p) := by
  simp [hostMoves, hx]

theorem hostMoves_radio (cfg : Config) {x : Stimulus} (hx : x.byHost = false) (run : List Stimulus)
    (p : Option (List Byte) × Mode) : hostMoves cfg (x :: run) p = hostMoves cfg run p := by
  simp [hostMoves, hx]

/-- A run that ends without a fault moves them as the host's own micro-steps in it do. -/
theorem Follows.run {p : Option (List Byte) × Mode} {run rest : List Stimulus} {s t : State} (h : Follows p s)
    (hq : s.stimuli = run ++ rest) (hrun : Host.Core.run Sys2Proof.core run.length s = .next t) (ht : t.fault = none) :
    Follows (hostMoves s.cfg run p) t := by
  induction run generalizing s p with
  | nil => cases hrun; exact h
  | cons x run ih =>
    obtain ⟨u, hu, hrest⟩ := run_succ_next hrun
    have hcfg : u.cfg = s.cfg := step_cfg hu
    cases hx : x.byHost with
    | true =>
      rw [hostMoves_host _ hx, ← hcfg]
      exact ih (hcfg ▸ h.step_host hq hu (fault_none_of_run hrest ht) hx) (step_stimuli hq hu) hrest
    | false =>
      rw [hostMoves_radio _ hx, ← hcfg]
      exact ih (h.step_radio hq hu hx) (step_stimuli hq hu) hrest

/-! ### The driver's steps: what they do to the mode -/

/-- The host's steps `xs`, whatever the radio link does among them, take the mode from `m` to `m'`. -/
def Settles (cfg : Config) (m : Mode) (xs : List Stimulus) (m' : Mode) : Prop :=
  (xs.flatMap Stimulus.microSteps).foldl (hostMove cfg) (none, m) = (none, m')

/-- The host's steps `xs` keep every mode. -/
def KeepsMode (cfg : Config) (xs : List Stimulus) : Prop := ∀ m, Settles cfg m xs m

/-- A run from between frames that ends without a fault leaves the mode that the host's steps settle. -/
theorem Settles.run {s t : State} {host run rest : List Stimulus} {m : Mode} (h : Settles s.cfg s.mode host m)
    (hs : s.fs = .idle) (hq : s.stimuli = run ++ rest) (hhost : Interleaves host run)
    (hrun : Host.Core.run Sys2Proof.core run.length s = .next t) (ht : t.fault = none) : t.mode = m ∧ t.fs = .idle := by
  have hmoves : hostMoves s.cfg run (none, s.mode) = (none, m) := by
    rw [hostMoves, show _ = _ from hhost]
    exact h
  have hfollows := (follows_idle hs).run hq hrun ht
  rw [hmoves] at hfollows
  exact ⟨hfollows.mode, hfollows.idle rfl⟩

theorem settles_nil (cfg : Config) (m : Mode) : Settles cfg m [] m := rfl

theorem Settles.append {cfg : Config} {m m' m'' : Mode} {xs ys : List Stimulus} (h : Settles cfg m xs m')
    (h' : Settles cfg m' ys m'') : Settles cfg m (xs ++ ys) m'' := by
  rw [Settles, List.flatMap_append, List.foldl_append, show _ = _ from h]
  exact h'

theorem Settles.ce {cfg : Config} {m m' : Mode} {xs : List Stimulus} (h : Settles cfg m xs m') (level : Level) :
    Settles cfg m (.ce level :: xs) m' := h

theorem settles_frame (cfg : Config) (m : Mode) (tx : List Byte) : Settles cfg m [.frame tx] (frameMode cfg m tx) := by
  rw [Settles, List.flatMap_singleton]
  exact hostMove_microSteps cfg tx none m

theorem microSteps_flatMap (tx : List Byte) : (microSteps tx).flatMap Stimulus.microSteps = microSteps tx := by
  have hbytes : (tx.map Stimulus.byte).flatMap Stimulus.microSteps = tx.map Stimulus.byte := by
    rw [List.flatMap_map]
    exact List.map_eq_flatMap.symm
  simp [microSteps, Stimulus.microSteps, hbytes]

theorem settles_microSteps (cfg : Config) (m : Mode) (tx : List Byte) : Settles cfg m (microSteps tx) (frameMode cfg m tx) := by
  rw [Settles, microSteps_flatMap]
  exact hostMove_microSteps cfg tx none m

theorem keepsMode_nil (cfg : Config) : KeepsMode cfg [] := settles_nil cfg

theorem KeepsMode.append {cfg : Config} {xs ys : List Stimulus} (h : KeepsMode cfg xs) (h' : KeepsMode cfg ys) :
    KeepsMode cfg (xs ++ ys) := fun m => (h m).append (h' m)

theorem KeepsMode.ce {cfg : Config} {xs : List Stimulus} (h : KeepsMode cfg xs) (level : Level) : KeepsMode cfg (.ce level :: xs) :=
  fun m => (h m).ce level

/-- The raise of the control line that a driver may or may not make. -/
theorem keepsMode_ite_ce (cfg : Config) (p : Prop) [Decidable p] (level : Level) :
    KeepsMode cfg (if p then [.ce level] else []) := by
  split
  · exact (keepsMode_nil cfg).ce level
  · exact keepsMode_nil cfg

/-! ### Frames that are no CONFIG write -/

/-- A frame of these bytes keeps every mode. -/
def Quiet (cfg : Config) (tx : List Byte) : Prop := ∀ m, frameMode cfg m tx = m

theorem quiet_of_decode {cfg : Config} {b : Byte} {i : Instr} (hd : decode cfg b = .command i)
    (hi : i ≠ .writeRegister RegName.config.addr) (ds : List Byte) : Quiet cfg (b :: ds) := by
  intro m
  cases ds with
  | nil => rfl
  | cons d ds =>
    rw [frameMode, if_neg]
    intro he
    exact hi (Decoded.command.inj (hd.symm.trans he))

/-- The first bytes of a quiet frame are quiet too. -/
theorem Quiet.take {cfg : Config} {tx : List Byte} (h : Quiet cfg tx) (j : Nat) : Quiet cfg (tx.take j) := by
  intro m
  match j, tx with
  | 0, _ | 1, [] | 1, _ :: _ | _ + 2, [] | _ + 2, [_] => rfl
  | _ + 2, _ :: _ :: _ => exact h m

/-- A transaction of a quiet frame keeps the mode, whatever of it arrives. -/
theorem keepsMode_transact {cfg : Config} {n : Nat} {tx : Vector Byte n} (h : Quiet cfg tx.toList) (t : Transport n) :
    KeepsMode cfg (transact tx t) := by
  intro m
  unfold transact
  split
  · split
    · exact settles_nil cfg m
    · exact Eq.trans (settles_frame cfg m _) (by rw [h m])
  · exact settles_nil cfg m
  · exact settles_nil cfg m
  · split
    · exact settles_nil cfg m
    · exact Eq.trans (settles_microSteps cfg m _) (by rw [h.take _ m])

/-- So do such transactions in order, wherever they fail and the driver goes on. -/
theorem keepsMode_sendAll {cfg : Config} {l : List Transaction} (h : ∀ t ∈ l, Quiet cfg t.frame.toList) :
    KeepsMode cfg (sendAll l).steps := by
  induction l with
  | nil => exact keepsMode_nil cfg
  | cons t l ih =>
    have hfirst : KeepsMode cfg (transact t.frame t.reply) := keepsMode_transact (h t List.mem_cons_self) t.reply
    have hrest := ih fun u hu => h u (List.mem_cons_of_mem t hu)
    rw [sendAll, Sent.andThen]
    split
    · exact hfirst.append hrest
    · refine hfirst.append ?_
      split
      · exact hrest
      · exact keepsMode_nil cfg

/-- A frame without data keeps the mode. -/
theorem quiet_command (cfg : Config) (opcode : Byte) : Quiet cfg (commandFrame opcode #v[]).toList := fun _ => rfl

theorem quiet_writePayload (cfg : Config) (payload : List Byte) : Quiet cfg (writePayloadFrame payload).toList :=
  quiet_of_decode (i := .writePayload) rfl (by simp) _

theorem quiet_readPayload (cfg : Config) (dummies : Vector Byte payloadWidth) : Quiet cfg (readPayloadFrame dummies).toList :=
  quiet_of_decode (i := .readPayload) rfl (by simp) _

theorem quiet_rxHasData (cfg : Config) : Quiet cfg rxHasDataFrame.toList :=
  quiet_of_decode (i := .readRegister RegName.fifoStatus.addr) rfl (by simp) _

/-- A register write of the host is quiet unless it is that of CONFIG. -/
theorem quiet_writeRegister (cfg : Config) {r : RegName} (hr : r ≠ .config) {n : Nat} (data : Vector Byte n) :
    Quiet cfg (writeRegisterFrame (hostAddr r) data).toList := by
  refine quiet_of_decode (decode_hostWrite cfg r) (fun he => hr ?_) _
  have haddr : r.addr = RegName.config.addr := Instr.writeRegister.inj he
  exact Option.some.inj (by rw [← regAt_addr r, haddr, regAt_addr])

theorem quiet_clear (cfg : Config) (d : Byte) : Quiet cfg (clearFrame d).toList := quiet_writeRegister cfg (by simp) _

/-! ### The mode operations (R249, R250) -/

/-- The host's CONFIG write, truly reported: the mode becomes that of its byte when it succeeds, and else stays (R205, R257). -/
theorem settles_configFrame {cfg : Config} (m : Mode) (c : Byte) {t : Transport 2} (htrue : t.reportsTruly = true) :
    Settles cfg m (transact (configFrame c) t) (if (transactError t).isNone then modeOf cfg c else m) := by
  cases t with
  | delivered _ => exact settles_frame cfg m _
  | busy => exact settles_nil cfg m
  | failed code arrived =>
    cases arrived with
    | none => exact settles_nil cfg m
    | some j =>
      have hj : frameMode cfg m ((configFrame c).toList.take j) = m := by
        obtain ⟨_ | _ | _, hlt⟩ := j
        · rfl
        · rfl
        · simp [Transport.reportsTruly] at htrue
      exact Eq.trans (settles_microSteps cfg m _) (by rw [hj]; rfl)

theorem modeOf_transmit {cfg : Config} {c : Byte} (h : isTransmitConfig cfg c) : modeOf cfg c = .transmit := by
  obtain ⟨hrx, -⟩ := h
  rw [modeOf, hrx]
  rfl

theorem modeOf_receive {cfg : Config} {c : Byte} (h : isReceiveConfig cfg c) : modeOf cfg c = .receive := by
  obtain ⟨hrx, -⟩ := h
  rw [modeOf, hrx]
  rfl

/-- A mode transition whose CONFIG transaction is truly reported leaves the block in the mode that the host records. Its
steps when it succeeds are CE low, the CONFIG write and a level of CE. -/
theorem settles_transition {cfg : Config} {m target : Mode} {whole : List Stimulus} {c : Byte} {t : Transport 2} {level : Level}
    (htrue : t.reportsTruly = true) (hc : modeOf cfg c = target)
    (hwhole : m ≠ target → whole = [.ce .low, .frame (configFrame c).toList, .ce level]) :
    Settles cfg m (transition m target whole c t).steps (transition m target whole c t).recorded := by
  have hconfig := settles_configFrame (cfg := cfg) m c htrue
  unfold transition
  split
  · exact settles_nil cfg m
  next hne =>
    split
    next hok =>
      have hframe : Settles cfg m [.frame (configFrame c).toList] target := hc ▸ settles_frame cfg m (configFrame c).toList
      rw [hwhole hne]
      exact (hframe.append ((settles_nil cfg target).ce level)).ce .low
    next hfail =>
      rw [if_neg hfail] at hconfig
      exact hconfig.ce .low

theorem settles_toTransmit {cfg : Config} (m : Mode) {c : Byte} {t : Transport 2} (htrue : t.reportsTruly = true)
    (hc : isTransmitConfig cfg c) : Settles cfg m (toTransmit m c t).steps (toTransmit m c t).recorded := by
  refine settles_transition (level := .low) htrue (modeOf_transmit hc) fun hm => ?_
  cases m with
  | transmit => exact absurd rfl hm
  | receive => rfl

theorem settles_toReceive {cfg : Config} (m : Mode) {c : Byte} {t : Transport 2} (htrue : t.reportsTruly = true)
    (hc : isReceiveConfig cfg c) : Settles cfg m (toReceive m c t).steps (toReceive m c t).recorded := by
  refine settles_transition (level := .high) htrue (modeOf_receive hc) fun hm => ?_
  cases m with
  | receive => exact absurd rfl hm
  | transmit => rfl

/-! ### transmit (R254) -/

section
variable {cfg : Config} {m m' : Mode} {cTx cRx : Byte} {steps : List Stimulus} {r : TransmitReplies}

theorem settles_transmitReturn (outcome : TransmitOutcome) (hsteps : Settles cfg m steps m') (htrue : r.toRx.reportsTruly = true)
    (hc : isReceiveConfig cfg cRx) :
    Settles cfg m (transmitReturn steps m' outcome cRx r).steps (transmitReturn steps m' outcome cRx r).recorded :=
  hsteps.append (settles_toReceive m' htrue hc)

theorem keepsMode_transmitClears (cfg : Config) (ch : DriverChoices) (r : TransmitReplies) (outcome : TransmitOutcome) :
    KeepsMode cfg (sendAll (transmitClears ch r outcome)).steps := by
  apply keepsMode_sendAll
  cases outcome <;> simp [transmitClears, quiet_clear, quiet_command]

theorem settles_transmitSettle (ch : DriverChoices) (polled : Byte) (hsteps : Settles cfg m steps m')
    (htrue : r.toRx.reportsTruly = true) (hc : isReceiveConfig cfg cRx) :
    Settles cfg m (transmitSettle ch steps m' polled cRx r).steps (transmitSettle ch steps m' polled cRx r).recorded :=
  settles_transmitReturn _ (hsteps.append (keepsMode_transmitClears cfg ch r _ m')) htrue hc

theorem settles_transmitPulse (ch : DriverChoices) (hsteps : Settles cfg m steps m') (htrue : r.toRx.reportsTruly = true)
    (hc : isReceiveConfig cfg cRx) :
    Settles cfg m (transmitPulse cfg ch steps m' cRx r).steps (transmitPulse cfg ch steps m' cRx r).recorded := by
  have hpoll : KeepsMode cfg (transact (commandFrame cfg.nopOpcode #v[]) r.poll) := keepsMode_transact (quiet_command cfg _) r.poll
  have hpulse : KeepsMode cfg (pulseSeq ++ transact (commandFrame cfg.nopOpcode #v[]) r.poll) := (hpoll.ce .low).ce .high
  unfold transmitPulse
  dsimp only
  split
  · exact settles_transmitSettle ch _ (hsteps.append (hpulse m')) htrue hc
  · exact settles_transmitReturn _ (hsteps.append (hpulse m')) htrue hc

/-- `transmit` leaves the block in the mode that it records. -/
theorem settles_transmit (ch : DriverChoices) (m : Mode) (payload : List Byte) (htx : r.toTx.reportsTruly = true)
    (hrx : r.toRx.reportsTruly = true) (hcTx : isTransmitConfig cfg cTx) (hcRx : isReceiveConfig cfg cRx) :
    Settles cfg m (transmit cfg ch m payload cTx cRx r).steps (transmit cfg ch m payload cTx cRx r).recorded := by
  have hload : KeepsMode cfg (send (writePayloadFrame payload) r.load).steps :=
    keepsMode_transact (quiet_writePayload cfg payload) r.load
  have htoTx := ((hload m).append (settles_toTransmit m htx hcTx)).ce .low
  unfold transmit
  dsimp only
  split
  · split
    · exact settles_transmitReturn _ ((hload m).ce .low) hrx hcRx
    · split
      · exact htoTx
      · exact settles_transmitPulse ch htoTx hrx hcRx
  · exact settles_nil cfg m

end

/-! ### receive (R255) -/

theorem keepsMode_cleanup (cfg : Config) (ch : DriverChoices) (replies : CleanupReplies) :
    KeepsMode cfg (cleanup ch replies).steps :=
  keepsMode_sendAll (by simp [cleanupTransactions, quiet_clear, quiet_command])

theorem keepsMode_readPayloadSeq (cfg : Config) (ch : DriverChoices) (dummies : Vector Byte payloadWidth)
    (t : Transport (payloadWidth + 1)) : KeepsMode cfg (readPayloadSeq ch dummies t) :=
  ((keepsMode_transact (quiet_readPayload cfg dummies) t).append (keepsMode_ite_ce cfg _ _)).ce .low

theorem keepsMode_receiveRead (cfg : Config) (ch : DriverChoices) (dummies : Vector Byte payloadWidth) (r : ReceiveReplies) :
    KeepsMode cfg (receiveRead ch dummies r).1 := by
  have hread := keepsMode_readPayloadSeq cfg ch dummies r.payload
  have hcleanup := keepsMode_cleanup cfg ch r.cleanup
  unfold receiveRead
  dsimp only
  split
  · exact hread.append ((hcleanup.append (keepsMode_ite_ce cfg _ _)).ce .low)
  · exact hread.append hcleanup

theorem keepsMode_receivePoll (cfg : Config) (ch : DriverChoices) (dummies : Vector Byte payloadWidth) (r : ReceiveReplies) :
    KeepsMode cfg (receivePoll ch dummies r).1 := by
  refine (keepsMode_transact (quiet_rxHasData cfg) r.probe).append ?_
  split
  · exact keepsMode_receiveRead cfg ch dummies r
  · exact keepsMode_cleanup cfg ch r.cleanup

/-- `receive` leaves the block in the mode that it records. -/
theorem settles_receive {cfg : Config} (ch : DriverChoices) (m : Mode) {cRx : Byte} (dummies : Vector Byte payloadWidth)
    {r : ReceiveReplies} (htrue : r.toRx.reportsTruly = true) (hc : isReceiveConfig cfg cRx) :
    Settles cfg m (receive ch m cRx dummies r).steps (receive ch m cRx dummies r).recorded := by
  have hreset : KeepsMode cfg (send (clearFrame 0x70#8) r.reset).steps := keepsMode_transact (quiet_clear cfg _) r.reset
  have htoRx := settles_toReceive m htrue hc
  unfold receive
  dsimp only
  split
  · exact (hreset m).append htoRx
  · exact (hreset m).append htoRx
  · exact (hreset m).append (htoRx.append (keepsMode_receivePoll cfg ch dummies r _))

/-! ### The boot sequence (R256) -/

/-- Transactions of which none failed were all sent, the first of them delivered. -/
theorem sendAll_cons_of_error_none {t : Transaction} {l : List Transaction} (h : (sendAll (t :: l)).error = none) :
    transactError t.reply = none ∧ (sendAll (t :: l)).steps = transact t.frame t.reply ++ (sendAll l).steps := by
  rw [sendAll, Sent.andThen] at h ⊢
  cases he : (send t.frame t.reply).error with
  | none => exact ⟨he, rfl⟩
  | some e =>
    rw [he] at h
    cases h

/-- The boot sequence's transactions after its CONFIG write are quiet. -/
theorem quiet_bootTransactions_tail (cfg : Config) (goesOn : Vector Bool 12) (v : BootBytes) (replies : BootReplies v) :
    ∀ t ∈ (bootTransactions goesOn v replies).tail, Quiet cfg t.frame.toList := by
  simp [bootTransactions, quiet_writeRegister, quiet_clear, quiet_command]

/-- A transaction that did not fail was truly reported. -/
theorem reportsTruly_of_transactError_none {t : Transport 2} (h : transactError t = none) : t.reportsTruly = true := by
  cases t with
  | delivered | busy => rfl
  | failed => cases h

/-- The boot sequence when it succeeds: its CONFIG write selects Receive, and the other transactions are quiet. -/
theorem settles_boot {cfg : Config} (ch : DriverChoices) (m : Mode) {v : BootBytes} (replies : BootReplies v) (hv : v.wf cfg)
    (h : (boot ch v replies).error = none) :
    Settles cfg m (boot ch v replies).steps .receive ∧ (boot ch v replies).recorded = some .receive := by
  obtain ⟨hc, -, -⟩ := hv
  unfold boot at h ⊢
  dsimp only at h ⊢
  cases herr : (sendAll (bootTransactions ch.bootGoesOn v replies)).error with
  | some e => simp [herr] at h
  | none =>
    obtain ⟨hconfig, hsteps⟩ := sendAll_cons_of_error_none herr
    have hfirst := settles_configFrame (cfg := cfg) m v.config (reportsTruly_of_transactError_none hconfig)
    rw [hconfig, modeOf_receive hc] at hfirst
    have hrest : KeepsMode cfg (sendAll (bootTransactions ch.bootGoesOn v replies).tail).steps :=
      keepsMode_sendAll (quiet_bootTransactions_tail cfg ch.bootGoesOn v replies)
    have hsent : Settles cfg m (sendAll (bootTransactions ch.bootGoesOn v replies)).steps .receive :=
      hsteps ▸ hfirst.append (hrest .receive)
    exact ⟨(hsent.append ((settles_nil cfg .receive).ce .high)).ce .low, rfl⟩

/-- Settles O60: along a run the block's mode is the one the host's micro-steps settle, and each operation of the driver
settles the mode that it records. -/
theorem recordedModeIsTheBlocksMode : Obligations.RecordedModeIsTheBlocksMode := by
  intro s t host run rest ch cTx cRx _ hs hq hhost hrun ht hcTx hcRx
  have hmode {m : Mode} (h : Settles s.cfg s.mode host m) : t.mode = m ∧ t.fs = .idle := h.run hs hq hhost hrun ht
  refine ⟨?toTransmit, ?toReceive, ?transmit, ?receive, ?boot⟩
  case toTransmit =>
    rintro reply htrue rfl
    exact hmode (settles_toTransmit s.mode htrue hcTx)
  case toReceive =>
    rintro reply htrue rfl
    exact hmode (settles_toReceive s.mode htrue hcRx)
  case transmit =>
    rintro payload r htx hrx rfl
    exact hmode (settles_transmit ch s.mode payload htx hrx hcTx hcRx)
  case receive =>
    rintro dummies r htrue rfl
    exact hmode (settles_receive ch s.mode dummies htrue hcRx)
  case boot =>
    rintro v replies hv rfl herr
    obtain ⟨hsettles, hrecorded⟩ := settles_boot ch s.mode replies hv herr
    obtain ⟨htmode, htfs⟩ := hmode hsettles
    exact ⟨by rw [hrecorded, htmode], htfs⟩

end Sys2Proof.Machine
